-- ==== Sys2Proof/Word.lean ====
section
/-! DEFINITION. The datum of the wire: an unsigned byte (00_scope.md R8). Every other width of the spec is a
plain bit vector or a natural number where it stands. -/

namespace Sys2Proof

/-- An unsigned 8-bit value, bit 0 the least significant (00_scope.md R8). -/
abbrev Byte := BitVec 8

end Sys2Proof
end

