-- ==== Sys2Proof/Config.lean ====
section
/-! DEFINITION. The configuration record `cfg` of 00_scope.md R7 with the values the spec decides, and the free
values of the model. -/

namespace Sys2Proof

/-- Exactly six key bytes, `b0` sent first (R52, R172). -/
structure Key where
  b0 : Byte
  b1 : Byte
  b2 : Byte
  b3 : Byte
  b4 : Byte
  b5 : Byte
  deriving DecidableEq, Repr

/-- The parameters of 00_scope.md R7, fixed for the life of the block. `devAddr`, `maxWrite`, `maxRead` and
`settle` are OPEN there, so they are arguments of the model. DESIGN CHOICE (log 1): the record stands in the
machine's state, where no step writes it, so that every statement ranges over it. -/
structure Config where
  /-- `P_DEV_ADDR`, OPEN; no rule depends on the value (D29). -/
  devAddr : BitVec 7
  /-- `P_MAX_WRITE`, OPEN. -/
  maxWrite : Nat
  /-- `P_MAX_READ`, OPEN, at least 20. -/
  maxRead : Nat
  /-- `P_SETTLE`, OPEN and without a unit; no rule reads it (R209, R246). -/
  settle : Nat
  /-- `P_PRIME_BYTES` -/
  primeBytes : List Byte
  /-- `P_SAM_PAYLOAD` -/
  samPayload : List Byte
  /-- `P_ILPT_PAYLOAD` -/
  ilptPayload : List Byte
  /-- `P_ILPT_READ_LEN` -/
  ilptReadLen : Nat
  /-- `P_MARK_OFF` -/
  markOff : Nat
  /-- `P_MARK_VAL` -/
  markVal : Byte
  /-- `P_NBTG_OFF` -/
  nbtgOff : Nat
  /-- `P_NBTG_VAL` -/
  nbtgVal : Byte
  /-- `P_UID_OFF` -/
  uidOff : Nat
  /-- `P_TGID_FOUND` -/
  tgidFound : Byte
  /-- `P_AUTH_CMD` -/
  authCmd : Byte
  /-- `P_KEY_A` -/
  keyA : Key
  /-- `P_AUTH_READ_LEN` -/
  authReadLen : Nat
  /-- `P_AUTH_STATUS_OFF` -/
  authStatusOff : Nat
  /-- `P_LEN_OFF` -/
  lenOff : Nat
  /-- `P_SLICE_START` -/
  sliceStart : Nat
  /-- `P_LEAD` -/
  lead : Byte
  /-- `P_WAKE_FAIL_CLEARS_RUNNING` -/
  wakeFailClearsRunning : Bool
  deriving DecidableEq, Repr

/-- The value column of 00_scope.md R7, for any choice of the four OPEN parameters. -/
def Config.decidedWith (devAddr : BitVec 7) (maxWrite maxRead settle : Nat) : Config where
  devAddr := devAddr
  maxWrite := maxWrite
  maxRead := maxRead
  settle := settle
  primeBytes := []
  samPayload := [0xD4, 0x14, 0x01]
  ilptPayload := [0xD4, 0x4A, 0x01, 0x00]
  ilptReadLen := 20
  markOff := 3
  markVal := 0xFF
  nbtgOff := 8
  nbtgVal := 0x01
  uidOff := 14
  tgidFound := 0x01
  authCmd := 0x60
  keyA := ⟨0xFF, 0xFF, 0xFF, 0xFF, 0xFF, 0xFF⟩
  authReadLen := 11
  authStatusOff := 8
  lenOff := 4
  sliceStart := 0
  lead := 0x01
  wakeFailClearsRunning := false

/-- The configuration of `State.reset`. The OPEN values are the model's: `maxWrite` and `maxRead` are the longest
frame ENCODE builds and the longest read EXPECT makes (DESIGN CHOICE, log 1), `devAddr` is the spec's own hint
(PRESUMED, log 2) and `settle` is read by nothing (DESIGN CHOICE, log 2). -/
def Config.decided : Config := Config.decidedWith 0x24 262 255 0

/-- `c` has R7's value in every field that R7 does not leave OPEN. -/
abbrev Config.IsDecided (c : Config) : Prop :=
  c = Config.decidedWith c.devAddr c.maxWrite c.maxRead c.settle

/-- FREE VALUE (R55, U2; log 3): byte `i` of the device's answer to the `k`-th transport read, where the state
scripts no answer. -/
opaque Config.deviceByte : Nat → Nat → Byte

/-- FREE VALUE (R146, R173; log 12): what an offset `i` past the end of the answer to read `k` yields. The
configurations the spec allows never read one. -/
opaque Config.absentByte : Nat → Nat → Byte

end Sys2Proof
end

