-- ==== Sys2Proof/Syntax.lean ====
section
/-! DEFINITION. The instructions, one constructor per row of spec/opcode_table.json, and the requests that stand
for the two encoding layers of 30_encoding.md. -/

namespace Sys2Proof

/-- The four bytes of a UID, `b0` the first one received and the first one sent (R23, R52). -/
structure Uid where
  b0 : Byte
  b1 : Byte
  b2 : Byte
  b3 : Byte
  deriving DecidableEq, Repr

/-- One constructor per row of spec/opcode_table.json. -/
inductive Instr where
  /-- `01`: build a command frame (R101). -/
  | encode (p : List Byte)
  /-- `02`: slice and parse a response image (R105). -/
  | decode (r : List Byte)
  /-- `03`: length checksum (R102). -/
  | lcs (len : Byte)
  /-- `04`: data checksum (R103). -/
  | dcs (p : List Byte)
  /-- `05`: read and compare a fixed byte sequence (R131). -/
  | expect (e : List Byte)
  /-- `10`: wake the device and disable SAM mode (R141). -/
  | wake
  /-- `11`: discover one passive target (R145). -/
  | findTarget
  /-- `12`: create an empty session (R150). -/
  | sessionNew
  /-- `20`: authenticate one memory unit with key A (R171). -/
  | auth (a : Byte)
  /-- Command payload `D4 14 mode` (R78). -/
  | wireSamConfiguration (mode : Byte)
  /-- Command payload `D4 4A MaxTg BrTy` (R79). -/
  | wireInListPassiveTarget (maxTg brTy : Byte)
  /-- Command payload `D4 40 tg 60 a K[6] UID[4]` (R81). -/
  | wireInDataExchangeAuthA (tg a : Byte) (key : Key) (uid : Uid)
  /-- Command payload `D4 40 tg 30 a`, formed by ENCODE only (R83, R91). -/
  | wireInDataExchangeRead16 (tg a : Byte)
  /-- Response image `01 00 00 FF 00 FF 00` (R73). -/
  | wireAck
  /-- Response image `01 00 00 FF 02 FE D5 15 16` (R74). -/
  | wireWakeConf
  /-- Response image of a discovery, 20 bytes (R80). -/
  | wireInListPassiveTargetResp (nbTg tg sens0 sens1 sel idLen : Byte) (uid : Uid)
  /-- Response image `01 00 00 FF 03 FD D5 41 st DCS 00` (R82). -/
  | wireInDataExchangeResp (st : Byte)
  deriving DecidableEq, Repr

/-- What the machine can be given to run. The host layer (R86) and the wire layer (30_encoding.md sections 1 to 4)
are separate byte spaces: `01 00 ...` opens both an ENCODE command and every response image. -/
inductive Request where
  /-- A host command `c`, opcode first (R86). -/
  | host (c : List Byte)
  /-- A command payload of the wire layer, TFI first (R75). -/
  | command (p : List Byte)
  /-- A response image the device stages, lead byte first (R71). -/
  | reply (r : List Byte)
  deriving DecidableEq, Repr

/-- The bytes of a request, whichever layer it belongs to. -/
def Request.bytes : Request → List Byte
  | .host c => c
  | .command p => p
  | .reply r => r

end Sys2Proof
end

