-- ==== Sys2Proof/Machine/Frame.lean ====
section
/-! DEFINITION. Checksum arithmetic and the frame layout (30_encoding.md R70 to R74, 40_frame_codec.md R100). -/

namespace Sys2Proof

/-- `Σ b` of 00_scope.md R8: the sum of the bytes as an unbounded natural number. -/
def byteSum : List Byte → Nat
  | [] => 0
  | b :: bs => b.toNat + byteSum bs

/-- The length checksum (R100). -/
def lcs (len : Byte) : Byte := BitVec.ofNat 8 ((256 - len.toNat) % 256)

/-- The data checksum (R100). -/
def dcs (p : List Byte) : Byte := BitVec.ofNat 8 ((256 - byteSum p % 256) % 256)

/-- The LEN byte of a payload; exact for the payloads of at most 255 bytes that ENCODE accepts (R70). -/
def lenByte (p : List Byte) : Byte := BitVec.ofNat 8 p.length

/-- The command frame of R70 (pseudocode of R101). -/
def encodeFrame (p : List Byte) : List Byte :=
  [0x00, 0x00, 0xFF, lenByte p, lcs (lenByte p)] ++ p ++ [dcs p, 0x00]

/-- The response image of R71 for a payload: the lead byte `01`, then the frame of R70. -/
def responseImage (p : List Byte) : List Byte := 0x01 :: encodeFrame p

/-- The acknowledgement constant (R73). -/
def ackImage : List Byte := [0x01, 0x00, 0x00, 0xFF, 0x00, 0xFF, 0x00]

/-- The wake-confirmation constant (R74). -/
def wakeConfImage : List Byte := [0x01, 0x00, 0x00, 0xFF, 0x02, 0xFE, 0xD5, 0x15, 0x16]

/-- The UID in the order it travels (R52). -/
def Uid.toList (u : Uid) : List Byte := [u.b0, u.b1, u.b2, u.b3]

/-- The key in the order it travels (R52). -/
def Key.toList (k : Key) : List Byte := [k.b0, k.b1, k.b2, k.b3, k.b4, k.b5]

/-- SAM-configuration command payload (R78). -/
def samPayload (mode : Byte) : List Byte := [0xD4, 0x14, mode]

/-- InListPassiveTarget command payload (R79). -/
def ilptPayload (maxTg brTy : Byte) : List Byte := [0xD4, 0x4A, maxTg, brTy]

/-- InDataExchange authenticate command payload with card command `cmd` (R81, R171). -/
def authPayload (tg cmd a : Byte) (key : Key) (uid : Uid) : List Byte :=
  [0xD4, 0x40, tg, cmd, a] ++ key.toList ++ uid.toList

/-- InDataExchange read command payload (R83). -/
def read16Payload (tg a : Byte) : List Byte := [0xD4, 0x40, tg, 0x30, a]

/-- Payload of the discovery response image (R80, offsets 6 to 17). -/
def ilptRespPayload (nbTg tg sens0 sens1 sel idLen : Byte) (uid : Uid) : List Byte :=
  [0xD5, 0x4B, nbTg, tg, sens0, sens1, sel, idLen] ++ uid.toList

/-- Payload of the InDataExchange response image (R82). -/
def dataExchangeRespPayload (st : Byte) : List Byte := [0xD5, 0x41, st]

end Sys2Proof
end

