-- ==== Sys2Proof/WellFormed.lean ====
section
/-! DEFINITION. Which instructions an encoding can carry (R88), and which configurations the spec allows. -/

namespace Sys2Proof

/-- The operand bounds of 30_encoding.md R88: one count byte for ENCODE, DCS and EXPECT, two for DECODE. Every
other operand is a byte. -/
def Instr.wf : Instr → Bool
  | .encode p => decide (p.length ≤ 255)
  | .decode r => decide (r.length ≤ 65535)
  | .lcs _ => true
  | .dcs p => decide (p.length ≤ 255)
  | .expect e => decide (e.length ≤ 255)
  | .wake => true
  | .findTarget => true
  | .sessionNew => true
  | .auth _ => true
  | .wireSamConfiguration _ => true
  | .wireInListPassiveTarget _ _ => true
  | .wireInDataExchangeAuthA _ _ _ _ => true
  | .wireInDataExchangeRead16 _ _ => true
  | .wireAck => true
  | .wireWakeConf => true
  | .wireInListPassiveTargetResp _ _ _ _ _ _ _ => true
  | .wireInDataExchangeResp _ => true

/-- The constraints of 00_scope.md R7, 42_session.md R146 and 43_authenticator.md R173. -/
def Config.wf (c : Config) : Bool :=
  decide (20 ≤ c.maxRead) && decide (c.uidOff + 4 ≤ c.ilptReadLen) && decide (c.authStatusOff < c.authReadLen)

end Sys2Proof
end

