-- ==== Sys2Proof/Decode.lean ====
section
/-! DEFINITION. The decoder of both encoding layers, total on any bytes, and the encoder (30_encoding.md). -/

namespace Sys2Proof

/-- Operand form host-0: the opcode alone. -/
def noOperand (i : Instr) : List Byte → Option Instr
  | [] => some i
  | _ => none

/-- Operand form host-B: one operand byte. -/
def byteOperand (f : Byte → Instr) : List Byte → Option Instr
  | [b] => some (f b)
  | _ => none

/-- Operand form host-L: a count byte and exactly that many bytes (R86, R88). -/
def countedOperand (f : List Byte → Instr) : List Byte → Option Instr
  | l :: p => if p.length = l.toNat then some (f p) else none
  | [] => none

/-- The big-endian 16-bit count of DECODE (R88). -/
def count16 (hi lo : Byte) : Nat := hi.toNat * 256 + lo.toNat

/-- Operand form host-N16: a big-endian 16-bit count and exactly that many bytes (R86, R88). -/
def counted16Operand (f : List Byte → Instr) : List Byte → Option Instr
  | hi :: lo :: r => if r.length = count16 hi lo then some (f r) else none
  | _ => none

/-- The host opcode table (R87). `none` is a command the FCB refuses: a reserved opcode (R89), or a length that
does not match the operands (R86). -/
def decodeHost : List Byte → Option Instr
  | [] => none
  | op :: ops =>
    if op = 0x01 then countedOperand .encode ops
    else if op = 0x02 then counted16Operand .decode ops
    else if op = 0x03 then byteOperand .lcs ops
    else if op = 0x04 then countedOperand .dcs ops
    else if op = 0x05 then countedOperand .expect ops
    else if op = 0x10 then noOperand .wake ops
    else if op = 0x11 then noOperand .findTarget ops
    else if op = 0x12 then noOperand .sessionNew ops
    else if op = 0x20 then byteOperand .auth ops
    else none

/-- The wire command payloads that are rows of the table (R78, R79, R81, R83). No other payload is illegal (R85):
one that is no row is `none` here, and ENCODE accepts it. -/
def decodeCommand : List Byte → Option Instr
  | [tfi, cmd, mode] => if tfi = 0xD4 ∧ cmd = 0x14 then some (.wireSamConfiguration mode) else none
  | [tfi, cmd, x, y] => if tfi = 0xD4 ∧ cmd = 0x4A then some (.wireInListPassiveTarget x y) else none
  | [tfi, cmd, tg, card, a] =>
    if tfi = 0xD4 ∧ cmd = 0x40 ∧ card = 0x30 then some (.wireInDataExchangeRead16 tg a) else none
  | [tfi, cmd, tg, card, a, k0, k1, k2, k3, k4, k5, u0, u1, u2, u3] =>
    if tfi = 0xD4 ∧ cmd = 0x40 ∧ card = 0x60 then
      some (.wireInDataExchangeAuthA tg a ⟨k0, k1, k2, k3, k4, k5⟩ ⟨u0, u1, u2, u3⟩)
    else none
  | _ => none

/-- The wire response images (R73, R74, R80, R82). An image that is no row of the table is `none`; the FCB takes
it as the bytes it is (R85). -/
def decodeReply : List Byte → Option Instr
  | [h0, h1, h2, h3, h4, h5, h6] =>
    if [h0, h1, h2, h3, h4, h5, h6] = ackImage then some .wireAck else none
  | [h0, h1, h2, h3, h4, h5, h6, h7, h8] =>
    if [h0, h1, h2, h3, h4, h5, h6, h7, h8] = wakeConfImage then some .wireWakeConf else none
  | [h0, h1, h2, h3, len, chk, tfi, code, st, sum, post] =>
    if [h0, h1, h2, h3, len, chk, tfi, code] = [0x01, 0x00, 0x00, 0xFF, 0x03, 0xFD, 0xD5, 0x41] ∧
        sum = dcs [tfi, code, st] ∧ post = 0x00 then
      some (.wireInDataExchangeResp st)
    else none
  | [h0, h1, h2, h3, len, chk, tfi, code, nb, tg, s0, s1, sel, idl, u0, u1, u2, u3, sum, post] =>
    if [h0, h1, h2, h3, len, chk, tfi, code] = [0x01, 0x00, 0x00, 0xFF, 0x0C, 0xF4, 0xD5, 0x4B] ∧
        sum = dcs [tfi, code, nb, tg, s0, s1, sel, idl, u0, u1, u2, u3] ∧ post = 0x00 then
      some (.wireInListPassiveTargetResp nb tg s0 s1 sel idl ⟨u0, u1, u2, u3⟩)
    else none
  | _ => none

/-- The instruction a request stands for, if it is a row of the table. -/
def decode : Request → Option Instr
  | .host c => decodeHost c
  | .command p => decodeCommand p
  | .reply r => decodeReply r

/-- The encoder, from the same tables (R87, R73, R74, R78 to R83). -/
def encode : Instr → Request
  | .encode p => .host (0x01 :: BitVec.ofNat 8 p.length :: p)
  | .decode r => .host (0x02 :: BitVec.ofNat 8 (r.length / 256) :: BitVec.ofNat 8 r.length :: r)
  | .lcs l => .host [0x03, l]
  | .dcs p => .host (0x04 :: BitVec.ofNat 8 p.length :: p)
  | .expect e => .host (0x05 :: BitVec.ofNat 8 e.length :: e)
  | .wake => .host [0x10]
  | .findTarget => .host [0x11]
  | .sessionNew => .host [0x12]
  | .auth a => .host [0x20, a]
  | .wireSamConfiguration mode => .command (samPayload mode)
  | .wireInListPassiveTarget maxTg brTy => .command (ilptPayload maxTg brTy)
  | .wireInDataExchangeAuthA tg a key uid => .command (authPayload tg 0x60 a key uid)
  | .wireInDataExchangeRead16 tg a => .command (read16Payload tg a)
  | .wireAck => .reply ackImage
  | .wireWakeConf => .reply wakeConfImage
  | .wireInListPassiveTargetResp nbTg tg s0 s1 sel idLen uid =>
    .reply (responseImage (ilptRespPayload nbTg tg s0 s1 sel idLen uid))
  | .wireInDataExchangeResp st => .reply (responseImage (dataExchangeRespPayload st))

/-! ### Words as spec/opcode_table.json numbers them -/

/-- The bytes of a table word, bit 0 in the first byte: the host rows' numbering. -/
def tableBytes (nbits w : Nat) : List Byte :=
  (List.range ((nbits + 7) / 8)).map fun i => BitVec.ofNat 8 (w / 2 ^ (8 * i))

/-- `bs` filled with zero bytes up to `n` bytes; a longer `bs` keeps every byte, so that its length is refused (R86). -/
def zeroExtendTo (n : Nat) (bs : List Byte) : List Byte := bs ++ List.replicate (n - bs.length) 0x00

/-- The length a host command's opcode and count bytes imply, absent count bytes reading as zero (R86, R87). -/
def hostCommandLength (bs : List Byte) : Nat :=
  let op := bs.getD 0 0x00
  let n := bs.getD 1 0x00
  if op = 0x01 ∨ op = 0x04 ∨ op = 0x05 then 2 + n.toNat
  else if op = 0x02 then 3 + count16 n (bs.getD 2 0x00)
  else if op = 0x03 ∨ op = 0x20 then 2
  else 1

/-- A wire row's word is written most significant byte first (`0xD414` is `p[0] = D4`, `p[1] = 14`), so its bytes
are the table bytes reversed. The table gives a response row its payload bytes only; the envelope of R71 is put
around them (DEDUCED, log 9). -/
def tableWireRequest (bs : List Byte) : Request :=
  let tfi := bs.getD 0 0x00
  let cmd := bs.getD 1 0x00
  let card := bs.getD 3 0x00
  if tfi = 0xD4 ∧ cmd = 0x14 then .command (zeroExtendTo 3 bs)
  else if tfi = 0xD4 ∧ cmd = 0x4A then .command (zeroExtendTo 4 bs)
  else if tfi = 0xD4 ∧ cmd = 0x40 ∧ card = 0x60 then .command (zeroExtendTo 15 bs)
  else if tfi = 0xD4 ∧ cmd = 0x40 ∧ card = 0x30 then .command (zeroExtendTo 5 bs)
  else if tfi = 0xD5 ∧ cmd = 0x4B then .reply (responseImage (zeroExtendTo 12 bs))
  else if tfi = 0xD5 ∧ cmd = 0x41 then .reply (responseImage (zeroExtendTo 3 bs))
  else .reply bs

/-- The request a table word stands for, every bit above `nbits` zero. The two numberings cannot be confused on
the table's rows: read low byte first, no wire row's word opens with a host opcode (log 9). A word that is no row
of the table, or is longer than its row's length, is a host command as it stands, which the FCB refuses (R86, R89). -/
def tableRequest (nbits w : Nat) : Request :=
  let bs := tableBytes nbits w
  let command := zeroExtendTo (hostCommandLength bs) bs
  let wire := tableWireRequest bs.reverse
  if (decodeHost command).isSome then .host command
  else if (decode wire).isSome then wire
  else .host bs

/-- The instruction the decoder reads from a table word. -/
def decodeTableWord (nbits w : Nat) : Option Instr := decode (tableRequest nbits w)

end Sys2Proof
end

