-- ==== Sys2Proof/Machine/State.lean ====
section
/-! DEFINITION. The architectural state of 10_state.md, with the configuration and the inputs it runs on, and the
state after reset. -/

namespace Sys2Proof.Machine

/-- One event of `TRACE` (R32). -/
inductive Event where
  /-- `W(b)`: a write of `b`. -/
  | write (b : List Byte)
  /-- `S`: one settling delay. -/
  | settle
  /-- `R(n, r)`: a read of `n` bytes that returned `r`. -/
  | read (n : Nat) (r : List Byte)
  deriving DecidableEq, Repr

/-- The sub-causes of `MALFORMED_FRAME` with what each records (R107, R200); `none` is `absent`. -/
inductive Malformed where
  | lead (b : Option Byte)
  | lcs (b : Option Byte)
  | dcs (b : Option Byte)
  | short (n : Nat)
  deriving DecidableEq, Repr

/-- One record of `DIAG` (R200). The last two belong to units out of scope and are never raised. -/
inductive Diag where
  /-- `TRANSPORT_MISMATCH(j, b)`, raised by EXPECT. -/
  | transportMismatch (index : Nat) (bytes : List Byte)
  /-- `MALFORMED_FRAME(sub-cause, info)`, raised by DECODE. -/
  | malformedFrame (cause : Malformed)
  /-- `AUTH_FAILURE(a, st)`, raised by AUTH. -/
  | authFailure (addr status : Byte)
  /-- `OVERSIZE_INPUT` -/
  | oversizeInput
  /-- `ILLEGAL_ADDRESS` -/
  | illegalAddress
  deriving DecidableEq, Repr

/-- The decoded-frame record (R104); `none` is `absent`. -/
structure DecodedFrame where
  len : Byte
  slice : List Byte
  payload : List Byte
  lcs : Option Byte
  dcs : Option Byte
  post : Option Byte
  leadOk : Bool
  lcsOk : Bool
  dcsOk : Bool
  short : Bool
  deriving DecidableEq, Repr

/-- What the result port holds (R34, R87). -/
inductive Result where
  /-- After reset and after SESSION_NEW. -/
  | none
  | bytes (b : List Byte)
  | frame (f : DecodedFrame)
  | byte (b : Byte)
  | bool (b : Bool)
  deriving DecidableEq, Repr

/-- The device as the FCB meets it: an input (R38, R55, R58; log 3, log 4). -/
structure Device where
  /-- The scripted answers, one per transport read, oldest first. -/
  staged : List (List Byte)
  /-- How many transport reads have been answered: the index of the free value `Config.deviceByte`. -/
  reads : Nat
  /-- How many more transport calls complete; `none`: every call does. -/
  callsLeft : Option Nat
  deriving DecidableEq, Repr

/-- `SSTATE` values (R27). 6 and 7 are reserved. -/
abbrev SState.asleep : BitVec 3 := 0
abbrev SState.waking : BitVec 3 := 1
abbrev SState.idle : BitVec 3 := 2
abbrev SState.searching : BitVec 3 := 3
abbrev SState.targetFound : BitVec 3 := 4
abbrev SState.noTarget : BitVec 3 := 5

/-- The registers of 10_state.md, after the model's own three fields. -/
structure State where
  /-- The configuration record (R7); no step writes it (log 1). -/
  cfg : Config
  /-- The requests waiting to be run, oldest first (log 5). -/
  port : List Request
  /-- The device's answers (log 3). -/
  device : Device
  /-- `PRESENT` (R21) -/
  present : Bool
  /-- `TGID` (R22) -/
  tgid : Byte
  /-- `UID` (R23) -/
  uid : Uid
  /-- `RUNNING` (R26) -/
  running : Bool
  /-- `SSTATE` (R27) -/
  sstate : BitVec 3
  /-- `STATUS` (R28) -/
  status : BitVec 8
  /-- `AUTH_STATUS` (R29) -/
  authStatus : Byte
  /-- `DIAG` (R31), oldest record first -/
  diag : List Diag
  /-- `TRACE` (R32), oldest event first -/
  trace : List Event
  /-- `HPC` (R33) -/
  hpc : Nat
  /-- `RESULT` (R34) -/
  result : Result
  /-- `REFUSED` (R35) -/
  refused : Bool
  deriving DecidableEq, Repr

/-- How the machine can stop. -/
inductive Fault where
  /-- A transport call of EXPECT, WAKE, FIND_TARGET, AUTH or a sent wire command row (SAM configuration,
  InListPassiveTarget) never completes: the FCB is stuck and has no step (R58, R206). Safe: no register of a stuck run can be read from the model (log 4). -/
  | deviceStall
  deriving DecidableEq, Repr

/-- Why an instruction has no meaning. Every instruction of this model has one, and a REFUSED operation in the
spec's sense (R210) is a next state, not this. -/
inductive Refusal where
  /-- Raised by no arm of exec. Safe. -/
  | notModelled (mnemonic : String)
  deriving DecidableEq, Repr

/-- The empty session's UID (R24). -/
abbrev zeroUid : Uid := ⟨0x00, 0x00, 0x00, 0x00⟩

/-- A device that scripts no answer, has answered no read, and never stalls (DESIGN CHOICE, log 3 and 4). -/
def Device.fresh : Device where
  staged := []
  reads := 0
  callsLeft := none

/-- Reset (R230): every register at its reset value, whatever the configuration, the waiting requests and the
device are. Reset changes none of those three (R231). -/
def State.resetWith (cfg : Config) (port : List Request) (device : Device) : State where
  cfg := cfg
  port := port
  device := device
  present := false
  tgid := 0x00
  uid := zeroUid
  running := false
  sstate := SState.asleep
  status := 0x00
  authStatus := 0x00
  diag := []
  trace := []
  hpc := 0
  result := .none
  refused := false

/-- The machine right after reset, with R7's decided configuration, no request waiting and a fresh device. -/
def State.reset : State := State.resetWith Config.decided [] Device.fresh

end Sys2Proof.Machine
end

