-- ==== Sys2Proof/Machine/Flags.lean ====
section
/-! DEFINITION. The `STATUS` flags (10_state.md R28). The FCB has no arithmetic flags (R30). -/

namespace Sys2Proof.Machine

/-- The fields of `STATUS` (R28). -/
inductive Flag where
  | ackOk
  | confOk
  | leadOk
  | lcsOk
  | dcsOk
  | short
  | authOk
  | found
  deriving DecidableEq, Repr

/-- The bit of `STATUS` a flag stands at (R28). -/
def Flag.bit : Flag → Nat
  | .ackOk => 0
  | .confOk => 1
  | .leadOk => 2
  | .lcsOk => 3
  | .dcsOk => 4
  | .short => 5
  | .authOk => 6
  | .found => 7

/-- `STATUS` with one flag written and the seven others as before. -/
def setFlag (f : Flag) (v : Bool) (status : BitVec 8) : BitVec 8 :=
  (status &&& ~~~(1#8 <<< f.bit)) ||| ((BitVec.ofBool v).setWidth 8 <<< f.bit)

/-- `STATUS.f` -/
def State.flag (s : State) (f : Flag) : Bool := s.status.getLsbD f.bit

/-- `STATUS.f <- v` -/
def State.withFlag (s : State) (f : Flag) (v : Bool) : State := { s with status := setFlag f v s.status }

end Sys2Proof.Machine
end

