-- ==== Sys2Proof/Machine/Operands.lean ====
section
/-! DEFINITION. Reading byte sequences (00_scope.md R8): every offset can be read, and one past the end is absent
(20_memory.md R53). -/

namespace Sys2Proof.Machine

/-- `b[i]`, `none` (absent) at or past the end. -/
def byteAt (b : List Byte) (i : Nat) : Option Byte := b[i]?

/-- `b[i..j)`, clipped to the sequence (R8). -/
def slice (b : List Byte) (i j : Nat) : List Byte := (b.take j).drop i

/-- The least index at which the bytes read differ from the bytes expected (R131). -/
def firstMismatch : List Byte → List Byte → Option Nat
  | e :: es, b :: bs => if b = e then (firstMismatch es bs).map (· + 1) else some 0
  | _, _ => none

end Sys2Proof.Machine
end

