-- ==== Sys2Proof/Machine/Ops.lean ====
section
/-! DEFINITION. The shared operations: the transport primitives (R10, R54, R55), `raise` (R11, R202), refusal
(R210), completion (R33), the comparator step (R131), and the two ways an instruction runs. -/

namespace Sys2Proof.Machine

/-! ### The device -/

/-- The answer to the next transport read, exactly `n` bytes (R55): the scripted bytes where there are any, free
bytes elsewhere (log 3). -/
def Device.answer (d : Device) (n : Nat) : List Byte :=
  (List.range n).map fun i => (d.staged.headD []).getD i (Config.deviceByte d.reads i)

/-- The device after it has completed a write. -/
def Device.afterWrite (d : Device) : Device := { d with callsLeft := d.callsLeft.map (· - 1) }

/-- The device after it has completed a read: the answer is used up, so a second read is a new one (R57). -/
def Device.afterRead (d : Device) : Device where
  staged := d.staged.tail
  reads := d.reads + 1
  callsLeft := d.callsLeft.map (· - 1)

/-- The device completes the next `k` transport calls (R58). -/
def Device.completes (d : Device) (k : Nat) : Bool :=
  match d.callsLeft with
  | none => true
  | some m => decide (k ≤ m)

/-! ### The transport primitives -/

/-- `TxWrite(b)`: the events `W(b)` and `S` (R10, R54). -/
def txWrite (b : List Byte) (s : State) : State :=
  { s with trace := s.trace ++ [.write b, .settle], device := s.device.afterWrite }

/-- What `TxRead(n)` returns (R55). -/
def txReadBytes (n : Nat) (s : State) : List Byte := s.device.answer n

/-- `TxRead(n)`: the event `R(n, r)` (R10, R55). -/
def txRead (n : Nat) (s : State) : State :=
  { s with trace := s.trace ++ [.read n (txReadBytes n s)], device := s.device.afterRead }

/-- A write the transport takes (R54). -/
def writable (c : Config) (b : List Byte) : Bool := decide (b.length ≤ c.maxWrite)

/-- A read the transport takes (R55). -/
def readable (c : Config) (n : Nat) : Bool := decide (n ≤ c.maxRead)

/-- A payload ENCODE accepts (R101) whose frame the transport takes (R54). -/
def sendable (c : Config) (p : List Byte) : Bool := decide (p.length ≤ 255) && writable c (encodeFrame p)

/-! ### Diagnostics, refusal, completion -/

/-- The numeric code of a diagnostic (R200). -/
def Diag.code : Diag → Byte
  | .transportMismatch _ _ => 0x01
  | .malformedFrame _ => 0x02
  | .authFailure _ _ => 0x03
  | .oversizeInput => 0x04
  | .illegalAddress => 0x05

/-- The sub-cause number of `MALFORMED_FRAME` (R200). -/
def Malformed.subCause : Malformed → Nat
  | .lead _ => 1
  | .lcs _ => 2
  | .dcs _ => 3
  | .short _ => 4

/-- `raise E(info)`: the FCB's whole exception entry. It appends the record and execution continues; nothing is
saved or transferred, and there is no return (R11, R202, R203). -/
def raise (d : Diag) (s : State) : State := { s with diag := s.diag ++ [d] }

/-- `if c then raise E(info)` -/
def raiseIf (c : Bool) (d : Diag) (s : State) : State := if c then raise d s else s

/-- The refusal rule (R210): `REFUSED <- 1`, `HPC` advances, and nothing else changes. -/
def refuse (s : State) : State := { s with refused := true, hpc := s.hpc + 1 }

/-- An operation completes with result `r` (R33, R34). -/
def complete (r : Result) (s : State) : State := { s with result := r, hpc := s.hpc + 1 }

/-- The device stages an answer behind those already staged (log 7). -/
def stage (b : List Byte) (s : State) : State :=
  { s with device := { s.device with staged := s.device.staged ++ [b] } }

/-! ### The comparator step (R131) -/

/-- EXPECT after its read `b`: the diagnostic on a mismatch. -/
def raiseMismatch (e b : List Byte) (s : State) : State :=
  match firstMismatch e b with
  | none => s
  | some j => raise (.transportMismatch j b) s

/-- The verdict of `EXPECT(e)`: true exactly when the bytes read equal `e`; an empty `e` reads nothing (D21). -/
def expectOk (e : List Byte) (s : State) : Bool :=
  e.isEmpty || (firstMismatch e (txReadBytes e.length s)).isNone

/-- The transport read and diagnostic of `EXPECT(e)`. -/
def expectRead (e : List Byte) (s : State) : State :=
  if e.isEmpty then s else raiseMismatch e (txReadBytes e.length s) (txRead e.length s)

/-- `EXPECT(e)` as a statement of an operation: rule R131 in full, with its read, its diagnostic and its writes of
`STATUS.ACK_OK` and `RESULT` (R12). -/
def expectStep (e : List Byte) (s : State) : State :=
  { (expectRead e s).withFlag .ackOk (expectOk e s) with result := .bool (expectOk e s) }

/-! ### How an instruction runs -/

/-- An operation that makes no transport call: refused where no command can carry it (R205, log 10). -/
def runPure (accepted : Bool) (effect : State → State) (s : State) : Host.Outcome State Fault Refusal :=
  if accepted then .next (effect s) else .next (refuse s)

/-- An operation that makes `calls` transport calls. A call over the limits refuses it before any event (R54, R55,
R210); a call the device never completes leaves it stuck (R58). -/
def runTransport (accepted : Bool) (calls : Nat) (effect : State → State) (s : State) :
    Host.Outcome State Fault Refusal :=
  if accepted then
    if s.device.completes calls then .next (effect s) else .fault .deviceStall
  else .next (refuse s)

/-- ENCODE of a payload (R101): its frame is the result, no transport call is made, and more than 255 bytes are
refused. -/
def formFrame (p : List Byte) (s : State) : Host.Outcome State Fault Refusal :=
  runPure (decide (p.length ≤ 255)) (complete (.bytes (encodeFrame p))) s

/-- A request that is no row of the opcode table. A host command is refused (R89, R86, R210). No wire encoding is
illegal (R85): ENCODE accepts every command payload, and only an operation's own rule sends one (R51); a response
image is staged as it is (log 13). -/
def runUnlisted (q : Request) (s : State) : Host.Outcome State Fault Refusal :=
  match q with
  | .host _ => .next (refuse s)
  | .command p => formFrame p s
  | .reply r => .next (stage r s)

end Sys2Proof.Machine
end

