-- ==== Sys2Proof/Machine/Session.lean ====
section
/-! DEFINITION. The session-state machine: WAKE, FIND_TARGET, SESSION_NEW (42_session.md). -/

namespace Sys2Proof.Machine

/-! ### WAKE -/

/-- Every transport call of WAKE is one the transport takes (R54, R55, R101). -/
def wakeFits (c : Config) : Bool :=
  writable c c.primeBytes && sendable c c.samPayload && readable c 7 && readable c 9

/-- WAKE up to its reads: `SSTATE`, the priming write, the SAM-configuration command (R141). -/
def wakeSend (s : State) : State :=
  txWrite (encodeFrame s.cfg.samPayload) (txWrite s.cfg.primeBytes { s with sstate := SState.waking })

/-- WAKE after its reads, with the acknowledgement `a` and the confirmation `c` (R141, R142). -/
def wakeFinish (a c : Bool) (s : State) : State :=
  let s := (s.withFlag .confOk c).withFlag .ackOk a
  if a && c then complete (.bool true) { s with running := true, sstate := SState.idle }
  else
    complete (.bool false)
      { s with running := if s.cfg.wakeFailClearsRunning then false else s.running, sstate := SState.asleep }

/-- WAKE's effect (R141): both reads always happen. -/
def wakeEffect (s : State) : State :=
  let sent := wakeSend s
  let acked := expectStep ackImage sent
  wakeFinish (expectOk ackImage sent) (expectOk wakeConfImage acked) (expectStep wakeConfImage acked)

/-- WAKE (R141): two writes and two reads. -/
def execWake (s : State) : Host.Outcome State Fault Refusal := runTransport (wakeFits s.cfg) 4 wakeEffect s

/-! ### FIND_TARGET -/

/-- The session registers at the empty session (R24). -/
def emptySession (s : State) : State := { s with present := false, tgid := 0x00, uid := zeroUid }

/-- The presence test (R146): an absent byte never equals a sentinel. -/
def presence (c : Config) (r : List Byte) : Bool :=
  byteAt r c.markOff == some c.markVal && byteAt r c.nbtgOff == some c.nbtgVal

/-- A byte of an answer at an offset the configuration fixes; past the end, which R146 and R173 rule out, a free
value (log 12). `k` is the index of the read. -/
def fixedByte (k : Nat) (r : List Byte) (i : Nat) : Byte := (byteAt r i).getD (Config.absentByte k i)

/-- The UID window (R146). -/
def uidWindow (c : Config) (k : Nat) (r : List Byte) : Uid where
  b0 := fixedByte k r c.uidOff
  b1 := fixedByte k r (c.uidOff + 1)
  b2 := fixedByte k r (c.uidOff + 2)
  b3 := fixedByte k r (c.uidOff + 3)

/-- Every transport call of FIND_TARGET is one the transport takes. -/
def findTargetFits (c : Config) : Bool :=
  sendable c c.ilptPayload && readable c 7 && readable c c.ilptReadLen

/-- FIND_TARGET up to its first read (R145). -/
def findTargetSend (s : State) : State :=
  txWrite (encodeFrame s.cfg.ilptPayload) { emptySession s with sstate := SState.searching }

/-- The session registers after the response `r` to read `k` (R145, R146). -/
def recordTarget (k : Nat) (r : List Byte) (s : State) : State :=
  if presence s.cfg r then
    { s with present := true, tgid := s.cfg.tgidFound, uid := uidWindow s.cfg k r, sstate := SState.targetFound }
  else { s with sstate := SState.noTarget }

/-- FIND_TARGET's effect (R145). -/
def findTargetEffect (s : State) : State :=
  let sent := findTargetSend s
  let acked := expectStep ackImage sent
  let r := txReadBytes s.cfg.ilptReadLen acked
  let s' := recordTarget acked.device.reads r (txRead s.cfg.ilptReadLen acked)
  complete (.bool (presence s.cfg r))
    ((s'.withFlag .ackOk (expectOk ackImage sent)).withFlag .found (presence s.cfg r))

/-- FIND_TARGET (R145): one write and two reads. -/
def execFindTarget (s : State) : Host.Outcome State Fault Refusal :=
  runTransport (findTargetFits s.cfg) 3 findTargetEffect s

/-! ### SESSION_NEW -/

/-- SESSION_NEW (R150). -/
def execSessionNew (s : State) : Host.Outcome State Fault Refusal := .next (complete .none (emptySession s))

end Sys2Proof.Machine
end

