-- ==== Sys2Proof/Machine/Authenticator.lean ====
section
/-! DEFINITION. The per-block key-A authenticator: AUTH (43_authenticator.md). -/

namespace Sys2Proof.Machine

/-- The command AUTH sends for memory unit `a` (R171). -/
def authCommand (a : Byte) (s : State) : List Byte := authPayload s.tgid s.cfg.authCmd a s.cfg.keyA s.uid

/-- Every transport call of AUTH is one the transport takes. -/
def authFits (a : Byte) (s : State) : Bool :=
  sendable s.cfg (authCommand a s) && readable s.cfg 7 && readable s.cfg s.cfg.authReadLen

/-- AUTH after its reads, with the acknowledgement `k` and the status byte `st` (R171, R173). -/
def authFinish (a : Byte) (k : Bool) (st : Byte) (s : State) : State :=
  let s := raiseIf (st != 0x00) (.authFailure a st) s
  let s := { s with authStatus := st }
  complete (.bool (st == 0x00)) ((s.withFlag .ackOk k).withFlag .authOk (st == 0x00))

/-- AUTH's effect (R171). -/
def authEffect (a : Byte) (s : State) : State :=
  let sent := txWrite (encodeFrame (authCommand a s)) s
  let acked := expectStep ackImage sent
  let r := txReadBytes s.cfg.authReadLen acked
  let st := fixedByte acked.device.reads r s.cfg.authStatusOff
  authFinish a (expectOk ackImage sent) st (txRead s.cfg.authReadLen acked)

/-- AUTH (R171): one write and two reads. -/
def execAuth (a : Byte) (s : State) : Host.Outcome State Fault Refusal :=
  runTransport (authFits a s) 3 (authEffect a) s

end Sys2Proof.Machine
end

