-- ==== Sys2Proof/Machine/Codec.lean ====
section
/-! DEFINITION. The frame codec and the checksum validator: ENCODE, LCS, DCS, DECODE (40_frame_codec.md). -/

namespace Sys2Proof.Machine

/-- ENCODE (R101). -/
def execEncode (p : List Byte) (s : State) : Host.Outcome State Fault Refusal :=
  formFrame p s

/-- LCS (R102). -/
def execLcs (len : Byte) (s : State) : Host.Outcome State Fault Refusal :=
  .next (complete (.byte (lcs len)) s)

/-- DCS (R103). -/
def execDcs (p : List Byte) (s : State) : Host.Outcome State Fault Refusal :=
  runPure (decide (p.length ≤ 255)) (complete (.byte (dcs p))) s

/-- The announced length N of R105, `00` when the LEN byte is absent (D45). -/
def announcedLength (c : Config) (r : List Byte) : Byte := (byteAt r c.lenOff).getD 0x00

/-- The payload region of R105. -/
def payloadRegion (c : Config) (r : List Byte) : List Byte :=
  slice r (c.lenOff + 2) (c.lenOff + 2 + (announcedLength c r).toNat)

/-- The received LCS of R105. -/
def receivedLcs (c : Config) (r : List Byte) : Option Byte := byteAt r (c.lenOff + 1)

/-- The received DCS of R105. -/
def receivedDcs (c : Config) (r : List Byte) : Option Byte :=
  byteAt r (c.lenOff + 2 + (announcedLength c r).toNat)

/-- The received postamble of R105. -/
def receivedPost (c : Config) (r : List Byte) : Option Byte :=
  byteAt r (c.lenOff + 3 + (announcedLength c r).toNat)

/-- The lead check of R106. -/
def leadOk (c : Config) (r : List Byte) : Bool := byteAt r c.sliceStart == some c.lead

/-- The length-checksum check of R106: an absent byte fails it. -/
def lcsOk (c : Config) (r : List Byte) : Bool :=
  match receivedLcs c r with
  | none => false
  | some x => ((announcedLength c r).toNat + x.toNat) % 256 == 0

/-- The data-checksum check of R106: an absent byte fails it. -/
def dcsOk (c : Config) (r : List Byte) : Bool :=
  match receivedDcs c r with
  | none => false
  | some x => (byteSum (payloadRegion c r) + x.toNat) % 256 == 0

/-- The short check of R106. -/
def shortImage (c : Config) (r : List Byte) : Bool :=
  decide (r.length < c.sliceStart + (announcedLength c r).toNat + 8)

/-- The decoded-frame record of R104 and R105. -/
def decodeFrame (c : Config) (r : List Byte) : DecodedFrame where
  len := announcedLength c r
  slice := slice r c.sliceStart (c.sliceStart + (announcedLength c r).toNat + 8)
  payload := payloadRegion c r
  lcs := receivedLcs c r
  dcs := receivedDcs c r
  post := receivedPost c r
  leadOk := leadOk c r
  lcsOk := lcsOk c r
  dcsOk := dcsOk c r
  short := shortImage c r

/-- The reporting of R107: the four flags, then the diagnostics in the order LEAD, LCS, DCS, SHORT. -/
def reportDecode (r : List Byte) (f : DecodedFrame) (s : State) : State :=
  let s := (((s.withFlag .leadOk f.leadOk).withFlag .lcsOk f.lcsOk).withFlag .dcsOk f.dcsOk).withFlag .short f.short
  let s := raiseIf (!f.leadOk) (.malformedFrame (.lead (byteAt r s.cfg.sliceStart))) s
  let s := raiseIf (!f.lcsOk) (.malformedFrame (.lcs f.lcs)) s
  let s := raiseIf (!f.dcsOk) (.malformedFrame (.dcs f.dcs)) s
  raiseIf f.short (.malformedFrame (.short r.length)) s

/-- DECODE's effect (R105 to R107): no failed check stops it or changes its result. -/
def decodeEffect (r : List Byte) (s : State) : State :=
  complete (.frame (decodeFrame s.cfg r)) (reportDecode r (decodeFrame s.cfg r) s)

/-- DECODE (R105). -/
def execDecode (r : List Byte) (s : State) : Host.Outcome State Fault Refusal :=
  runPure (decide (r.length ≤ 65535)) (decodeEffect r) s

end Sys2Proof.Machine
end

