-- ==== Sys2Proof/Machine/Comparator.lean ====
section
/-! DEFINITION. The acknowledgement-frame comparator: EXPECT (41_ack_comparator.md). -/

namespace Sys2Proof.Machine

/-- EXPECT's effect: the comparator step, whose verdict is the result (R131). -/
def expectEffect (e : List Byte) (s : State) : State := complete (.bool (expectOk e s)) (expectStep e s)

/-- EXPECT (R131): one read, or none for an empty sequence. -/
def execExpect (e : List Byte) (s : State) : Host.Outcome State Fault Refusal :=
  runTransport (decide (e.length ≤ 255) && readable s.cfg e.length) (if e.isEmpty then 0 else 1) (expectEffect e) s

end Sys2Proof.Machine
end

