-- ==== Sys2Proof/Machine/Wire.lean ====
section
/-! DEFINITION. The wire rows of the opcode table (30_encoding.md sections 1 to 4). The payloads of WAKE
and FIND_TARGET are each one transport write of their frame (log 6). A payload that names a card memory unit is formed
by ENCODE only, because the FCB reaches that space by AUTH alone (R51; log 8). A response image is staged by the device
as its answer to a transport read (log 7). -/

namespace Sys2Proof.Machine

/-- The FCB sends a command payload (R54, R70): a step inside an operation, so `HPC` and `RESULT` stay (log 6). -/
def sendCommand (p : List Byte) (s : State) : Host.Outcome State Fault Refusal :=
  runTransport (sendable s.cfg p) 1 (txWrite (encodeFrame p)) s

/-- SAM configuration (R78). -/
def execWireSamConfiguration (mode : Byte) (s : State) : Host.Outcome State Fault Refusal :=
  sendCommand (samPayload mode) s

/-- InListPassiveTarget (R79). -/
def execWireInListPassiveTarget (maxTg brTy : Byte) (s : State) : Host.Outcome State Fault Refusal :=
  sendCommand (ilptPayload maxTg brTy) s

/-- InDataExchange, authenticate with key A (R81): the row forms the frame. AUTH alone sends one, with its own address,
key and session (R51, R170). -/
def execWireInDataExchangeAuthA (tg a : Byte) (key : Key) (uid : Uid) (s : State) :
    Host.Outcome State Fault Refusal :=
  formFrame (authPayload tg 0x60 a key uid) s

/-- InDataExchange, read 16 bytes: the pseudo-operation ENCODE_READ16 (R83, R91). -/
def execWireInDataExchangeRead16 (tg a : Byte) (s : State) : Host.Outcome State Fault Refusal :=
  formFrame (read16Payload tg a) s

/-- The acknowledgement (R73). -/
def execWireAck (s : State) : Host.Outcome State Fault Refusal := .next (stage ackImage s)

/-- The wake confirmation (R74). -/
def execWireWakeConf (s : State) : Host.Outcome State Fault Refusal := .next (stage wakeConfImage s)

/-- The discovery response (R80). -/
def execWireInListPassiveTargetResp (nbTg tg sens0 sens1 sel idLen : Byte) (uid : Uid) (s : State) :
    Host.Outcome State Fault Refusal :=
  .next (stage (responseImage (ilptRespPayload nbTg tg sens0 sens1 sel idLen uid)) s)

/-- The InDataExchange response (R82). -/
def execWireInDataExchangeResp (st : Byte) (s : State) : Host.Outcome State Fault Refusal :=
  .next (stage (responseImage (dataExchangeRespPayload st)) s)

end Sys2Proof.Machine
end

