-- ==== Sys2Proof/Machine/Dispatch.lean ====
section
/-! DEFINITION. The meaning of every instruction, one arm per row of spec/opcode_table.json. -/

namespace Sys2Proof.Machine

def exec (i : Instr) (s : State) : Host.Outcome State Fault Refusal :=
  match i with
  | .encode p => Sys2Proof.Machine.execEncode p s
  | .decode r => Sys2Proof.Machine.execDecode r s
  | .lcs len => Sys2Proof.Machine.execLcs len s
  | .dcs p => Sys2Proof.Machine.execDcs p s
  | .expect e => Sys2Proof.Machine.execExpect e s
  | .wake => Sys2Proof.Machine.execWake s
  | .findTarget => Sys2Proof.Machine.execFindTarget s
  | .sessionNew => Sys2Proof.Machine.execSessionNew s
  | .auth a => Sys2Proof.Machine.execAuth a s
  | .wireSamConfiguration mode => Sys2Proof.Machine.execWireSamConfiguration mode s
  | .wireInListPassiveTarget maxTg brTy => Sys2Proof.Machine.execWireInListPassiveTarget maxTg brTy s
  | .wireInDataExchangeAuthA tg a key uid => Sys2Proof.Machine.execWireInDataExchangeAuthA tg a key uid s
  | .wireInDataExchangeRead16 tg a => Sys2Proof.Machine.execWireInDataExchangeRead16 tg a s
  | .wireAck => Sys2Proof.Machine.execWireAck s
  | .wireWakeConf => Sys2Proof.Machine.execWireWakeConf s
  | .wireInListPassiveTargetResp nbTg tg s0 s1 sel idLen uid => Sys2Proof.Machine.execWireInListPassiveTargetResp nbTg tg s0 s1 sel idLen uid s
  | .wireInDataExchangeResp st => Sys2Proof.Machine.execWireInDataExchangeResp st s

end Sys2Proof.Machine
end

