-- ==== Sys2Proof/Machine/Step.lean ====
section
/-! DEFINITION. One step of the machine: the oldest waiting request is taken and run. -/

namespace Sys2Proof.Machine

/-- The state once the oldest request has been taken from the port. -/
def State.take (s : State) (rest : List Request) : State := { s with port := rest }

/-- One step. With nothing waiting the FCB waits (R231; log 5). -/
def step (s : State) : Host.Outcome State Fault Refusal :=
  match s.port with
  | [] => .next s
  | q :: rest =>
    match decode q with
    | some i => exec i (s.take rest)
    | none => runUnlisted q (s.take rest)

/-- The table word's request put at the head of the port, where the next step takes it. -/
def State.withFetchWord (s : State) (nbits w : Nat) : State := { s with port := tableRequest nbits w :: s.port }

end Sys2Proof.Machine
end

