-- ==== Sys2Proof/Safety.lean ====
section
/-! DEFINITION. What counts as a good state, and the words the statements use: the session invariant (R25), the
visible `SSTATE` values (R27), the shape of `TRACE` (R54, R55) and of `DIAG` (R201), and which rows are host
operations. -/

namespace Sys2Proof.Machine

/-- The session invariant (R25), with R7's `P_TGID_FOUND` for `0x01`. -/
abbrev SessionConsistent (s : State) : Prop :=
  (s.present = false → s.tgid = 0x00 ∧ s.uid = zeroUid) ∧ (s.present = true → s.tgid = s.cfg.tgidFound)

/-- The values of `SSTATE` the host can read (R27). -/
abbrev SStateVisible (s : State) : Prop :=
  s.sstate = SState.asleep ∨ s.sstate = SState.idle ∨ s.sstate = SState.targetFound ∨ s.sstate = SState.noTarget

/-- Every write is followed at once by its settling delay, no delay stands alone (R54), and every read returned
exactly the bytes it asked for (R55). -/
def traceOk : List Event → Bool
  | [] => true
  | .write _ :: .settle :: es => traceOk es
  | .read n r :: es => r.length == n && traceOk es
  | .write _ :: _ => false
  | .settle :: _ => false

/-- The diagnostics the FCB raises (R201): codes `01`, `02` and `03`. -/
def raisedByFcb : Diag → Bool
  | .transportMismatch _ _ => true
  | .malformedFrame _ => true
  | .authFailure _ _ => true
  | .oversizeInput => false
  | .illegalAddress => false

/-- What the flags and registers say of each other: each line holds because one operation writes both sides. -/
abbrev StatusConsistent (s : State) : Prop :=
  (s.present = true → s.flag .found = true) ∧
  (s.flag .authOk = true → s.authStatus = 0x00) ∧
  (s.sstate = SState.idle → s.running = true) ∧
  (s.sstate = SState.targetFound → s.flag .found = true) ∧
  (s.sstate = SState.noTarget → s.flag .found = false ∧ s.present = false)

/-- The machine's invariant: kept by every step, and true after reset. -/
abbrev GoodState (s : State) : Prop :=
  SessionConsistent s ∧ SStateVisible s ∧ StatusConsistent s ∧ traceOk s.trace = true ∧
    s.diag.all raisedByFcb = true

/-- The rows that are host operations (R87): the nine commands, and the two InDataExchange payloads, which are ENCODE
commands (R91; log 8). -/
def isHostOperation : Instr → Bool
  | .encode _ => true
  | .decode _ => true
  | .lcs _ => true
  | .dcs _ => true
  | .expect _ => true
  | .wake => true
  | .findTarget => true
  | .sessionNew => true
  | .auth _ => true
  | .wireSamConfiguration _ => false
  | .wireInListPassiveTarget _ _ => false
  | .wireInDataExchangeAuthA _ _ _ _ => true
  | .wireInDataExchangeRead16 _ _ => true
  | .wireAck => false
  | .wireWakeConf => false
  | .wireInListPassiveTargetResp _ _ _ _ _ _ _ => false
  | .wireInDataExchangeResp _ => false

/-- What EXPECT appends to `DIAG` for the expected bytes `e` and the bytes read `b` (R131): nothing when they are
equal, else one record with the least differing index. -/
def MismatchRecords (e b : List Byte) (d : List Diag) : Prop :=
  if b = e then d = []
  else ∃ j, j < e.length ∧ (∀ i, i < j → b[i]? = e[i]?) ∧ b[j]? ≠ e[j]? ∧ d = [.transportMismatch j b]

/-- The device after it has completed `w` writes and `r` reads. -/
def Device.afterCalls (d : Device) (w r : Nat) : Device where
  staged := d.staged.drop r
  reads := d.reads + r
  callsLeft := d.callsLeft.map (· - (w + r))

/-- A host command whose opcode is in the table and whose length is not the one its opcode and count bytes imply
(R86, R87). -/
def LengthMismatch : List Byte → Prop
  | [] => False
  | op :: ops =>
    ((op = 0x01 ∨ op = 0x04 ∨ op = 0x05) ∧ (ops = [] ∨ ∃ l p, ops = l :: p ∧ p.length ≠ l.toNat)) ∨
    (op = 0x02 ∧ (ops.length < 2 ∨ ∃ hi lo r, ops = hi :: lo :: r ∧ r.length ≠ hi.toNat * 256 + lo.toNat)) ∨
    ((op = 0x03 ∨ op = 0x20) ∧ ops.length ≠ 1) ∨
    ((op = 0x10 ∨ op = 0x11 ∨ op = 0x12) ∧ ops ≠ [])

/-- An opcode outside the table of R87, by the ranges of R89. -/
def ReservedOpcode (op : Byte) : Prop :=
  op.toNat = 0x00 ∨ (0x06 ≤ op.toNat ∧ op.toNat ≤ 0x0F) ∨ (0x13 ≤ op.toNat ∧ op.toNat ≤ 0x1F) ∨ 0x21 ≤ op.toNat

/-- DECODE of `r` completes with the record `f`, appends `d` to `DIAG` and touches no log else. -/
def DecodesTo (s : State) (r : List Byte) (f : DecodedFrame) (d : List Diag) : Prop :=
  ∃ t, exec (.decode r) s = .next t ∧ t.result = .frame f ∧ t.diag = s.diag ++ d ∧ t.trace = s.trace

/-- The result type of each host operation (R34, R87); the two InDataExchange rows have ENCODE's (log 8). -/
def ResultTyped : Instr → Result → Prop
  | .encode _, r => ∃ b, r = .bytes b
  | .decode _, r => ∃ f, r = .frame f
  | .lcs _, r => ∃ b, r = .byte b
  | .dcs _, r => ∃ b, r = .byte b
  | .expect _, r => ∃ b, r = .bool b
  | .wake, r => ∃ b, r = .bool b
  | .findTarget, r => ∃ b, r = .bool b
  | .sessionNew, r => r = .none
  | .auth _, r => ∃ b, r = .bool b
  | .wireSamConfiguration _, _ => True
  | .wireInListPassiveTarget _ _, _ => True
  | .wireInDataExchangeAuthA _ _ _ _, r => ∃ b, r = .bytes b
  | .wireInDataExchangeRead16 _ _, r => ∃ b, r = .bytes b
  | .wireAck, _ => True
  | .wireWakeConf, _ => True
  | .wireInListPassiveTargetResp _ _ _ _ _ _ _, _ => True
  | .wireInDataExchangeResp _, _ => True

/-- The operations that may raise a diagnostic (R201). -/
def MayRaise : Instr → Diag → Prop
  | i, .transportMismatch _ _ => (∃ e, i = .expect e) ∨ i = .wake ∨ i = .findTarget ∨ ∃ a, i = .auth a
  | i, .malformedFrame _ => ∃ r, i = .decode r
  | i, .authFailure _ _ => ∃ a, i = .auth a
  | _, .oversizeInput => False
  | _, .illegalAddress => False

/-- The state with the two registers an order check could read blanked (R153). -/
def State.blankGate (s : State) : State := { s with sstate := SState.asleep, running := false }

/-- The state with everything AUTH reports blanked (R174). -/
def State.blankAuthReport (s : State) : State :=
  { s with authStatus := 0x00, result := .none, diag := [], status := setFlag .authOk false s.status }

/-- The state with every register that is an output only blanked: what is left is what an operation may read. -/
def State.blankOutputs (s : State) : State :=
  { s with
    running := false
    sstate := SState.asleep
    status := 0x00
    authStatus := 0x00
    diag := []
    trace := []
    hpc := 0
    result := .none
    refused := false }

/-- Two runs, from `s` to `s'` and from `t` to `t'`, both kept the register `reg` or left one value in it. -/
def WrittenAlike {α : Type} (reg : State → α) (s t s' t' : State) : Prop :=
  (reg s' = reg s ∧ reg t' = reg t) ∨ reg s' = reg t'

/-- Two runs appended the same records to the log `log`. -/
def AppendedAlike {α : Type} (log : State → List α) (s t s' t' : State) : Prop :=
  ∃ d, log s' = log s ++ d ∧ log t' = log t ++ d

/-- Two outcomes of one kind: next states that `agree`, or one fault or refusal. -/
def SameOutcome (agree : State → State → Prop) :
    Host.Outcome State Fault Refusal → Host.Outcome State Fault Refusal → Prop
  | .next s, .next t => agree s t
  | .fault a, .fault b => a = b
  | .refused a, .refused b => a = b
  | _, _ => False

end Sys2Proof.Machine
end

