-- ==== Sys2Proof/Certificates/Slice0/Obligations.lean ====
section
/-! DEFINITION. The statements for the provers, from the numbered rules of spec/. A statement that rests on a choice
of the model's own names its log entry. -/

open Sys2Proof Sys2Proof.Machine

/-! ### Decoding and the step -/

/-- R86 to R88, R78 to R83: every instruction an encoding can carry is decoded back from its encoding. -/
def Obligations.DecodeRecoversEncodedInstr : Prop :=
  ∀ i : Instr, i.wf = true → decode (encode i) = some i

/-- R86: a request that decodes is exactly the encoding of what it decodes to, and the instruction is well-formed:
no length but the implied one and no second spelling is accepted. -/
def Obligations.EncodeRecoversDecodedRequest : Prop :=
  ∀ (q : Request) (i : Instr), decode q = some i → i.wf = true ∧ encode i = q

/-- R63, R33: a waiting request that decodes is taken and run; nothing else is added around `exec`. The queue is
the model's own (log 5). -/
def Obligations.StepRunsDecodedRequest : Prop :=
  ∀ (s : State) (q : Request) (rest : List Request) (i : Instr),
    s.port = q :: rest → decode q = some i → step s = exec i { s with port := rest }

/-- Words written out from R87, R90, R91, R78 to R83 decode to the instructions they stand for. -/
def Obligations.SpecWordsDecode : Prop :=
  decode (.host [0x01, 0x05, 0xD4, 0x40, 0x01, 0x30, 0x04]) = some (.encode [0xD4, 0x40, 0x01, 0x30, 0x04]) ∧
  decode (.host [0x02, 0x00, 0x03, 0x01, 0x00, 0x00]) = some (.decode [0x01, 0x00, 0x00]) ∧
  decode (.host [0x05, 0x07, 0x01, 0x00, 0x00, 0xFF, 0x00, 0xFF, 0x00]) = some (.expect ackImage) ∧
  decode (.host [0x10]) = some .wake ∧
  decode (.host [0x20, 0x04]) = some (.auth 0x04) ∧
  decode (.command [0xD4, 0x14, 0x01]) = some (.wireSamConfiguration 0x01) ∧
  decode (.reply [0x01, 0x00, 0x00, 0xFF, 0x02, 0xFE, 0xD5, 0x15, 0x16]) = some .wireWakeConf ∧
  decode (.reply [0x01, 0x00, 0x00, 0xFF, 0x03, 0xFD, 0xD5, 0x41, 0x14, 0xD6, 0x00]) =
    some (.wireInDataExchangeResp 0x14)

/-- R231: with no request waiting, a step waits. Waiting as a step that changes nothing is the model's choice
(log 5). -/
def Obligations.StepWaitsForRequest : Prop := ∀ s : State, s.port = [] → step s = .next s

/-- R85, R55, R51: no wire encoding is illegal. A response image that is no row of the table is staged as the bytes it
is, and a command payload that is no row is one ENCODE accepts: its frame is the result, and nothing is sent. That
such a request is one step of its own is the model's choice (log 7, log 13; the queue log 5). -/
def Obligations.StepTakesUnlistedWireRequests : Prop :=
  ∀ (s : State) (b : List Byte) (rest : List Request),
    (decode (.reply b) = none → s.port = .reply b :: rest →
      step s = .next { s with port := rest, device := { s.device with staged := s.device.staged ++ [b] } }) ∧
    (decode (.command b) = none → s.port = .command b :: rest → b.length ≤ 255 →
      step s = .next { s with port := rest, result := .bytes (encodeFrame b), hpc := s.hpc + 1 })

/-! ### Reset -/

/-- R230: every register after reset. -/
def Obligations.ResetRegisterValues : Prop :=
  ∀ (cfg : Config) (port : List Request) (device : Device),
    let s := State.resetWith cfg port device
    s.present = false ∧ s.tgid = 0x00 ∧ s.uid = ⟨0x00, 0x00, 0x00, 0x00⟩ ∧ s.running = false ∧ s.sstate = 0 ∧
      s.status = 0x00 ∧ s.authStatus = 0x00 ∧ s.diag = [] ∧ s.trace = [] ∧ s.hpc = 0 ∧ s.result = .none ∧
      s.refused = false

/-- R231: reset changes neither the configuration nor the device, and nothing waits before the first host command.
How the three stand in the state, and that `State.reset` has R7's values, an empty queue and an unscripted device
that never stalls, is the model's (log 1, log 3, log 4, log 5, log 15). -/
def Obligations.ResetLeavesConfigurationAndInputs : Prop :=
  (∀ (cfg : Config) (port : List Request) (device : Device),
    let s := State.resetWith cfg port device
    s.cfg = cfg ∧ s.port = port ∧ s.device = device) ∧
  ∃ cfg device, cfg.IsDecided ∧ cfg.wf = true ∧ device.staged = [] ∧ device.callsLeft = none ∧
    State.reset = State.resetWith cfg [] device

/-- R25, R27, R230: the invariant holds after reset. -/
def Obligations.ResetMeetsInvariant : Prop :=
  ∀ (cfg : Config) (port : List Request) (device : Device), GoodState (State.resetWith cfg port device)

/-! ### Invariants and whole-machine rules -/

/-- The headline invariant: the session is consistent (R25), `SSTATE` has a visible value (R27), the flags agree
with the registers they report (R28), every write in `TRACE` is followed by its delay and every read returned what
it asked for (R54, R55), and `DIAG` holds only what the FCB raises (R201). Every step keeps it. -/
def Obligations.StepKeepsInvariant : Prop := ∀ s t : State, GoodState s → step s = .next t → GoodState t

/-- R25, which the spec marks as derived, over every operation: consistent before gives consistent after; and a
found card may report the zero UID, so a zero UID does not mean that no target is present. -/
def Obligations.OperationKeepsSessionConsistent : Prop :=
  (∀ (i : Instr) (s t : State), s.cfg.tgidFound = 0x01 → SessionConsistent s → exec i s = .next t →
    (t.present = false → t.tgid = 0x00 ∧ t.uid = ⟨0x00, 0x00, 0x00, 0x00⟩) ∧ (t.present = true → t.tgid = 0x01)) ∧
  ∃ s t : State, s.cfg.IsDecided ∧ SessionConsistent s ∧ exec .findTarget s = .next t ∧ t.present = true ∧
    t.uid = ⟨0x00, 0x00, 0x00, 0x00⟩

/-- R152, between operations: WAKE ends in `Idle` or `Asleep` by its result, FIND_TARGET in `TargetFound` or
`NoTarget` by its result, a refused command and every other row leave `SSTATE` alone. -/
def Obligations.SStateTransitions : Prop :=
  ∀ (i : Instr) (s t : State), exec i s = .next t →
    (i ≠ .wake → i ≠ .findTarget → t.sstate = s.sstate) ∧
    (i = .wake → t = refuse s ∨ (t.result = .bool true ∧ t.sstate = SState.idle) ∨
      (t.result = .bool false ∧ t.sstate = SState.asleep)) ∧
    (i = .findTarget → t = refuse s ∨ (t.result = .bool true ∧ t.sstate = SState.targetFound) ∨
      (t.result = .bool false ∧ t.sstate = SState.noTarget))

/-- R26: only a WAKE whose acknowledgement and confirmation both matched sets `RUNNING`. That the answers are the
device's script is the model's (log 3). -/
def Obligations.RunningSetOnlyByMatchedWake : Prop :=
  ∀ (i : Instr) (s t : State), exec i s = .next t → s.running = false → t.running = true →
    i = .wake ∧ s.device.answer 7 = ackImage ∧ (s.device.afterCalls 0 1).answer 9 = wakeConfImage

/-- R37, which the spec marks as derived: every register is written only by the operations its row of the table names,
and both logs only grow. With R34, R35 and R87: an operation is refused, or it leaves a result of its own type and
keeps `REFUSED`. That the two InDataExchange rows, authenticate and READ16, count here as ENCODE commands, with a byte
sequence as result and `TRACE` unchanged, is the model's reading (DEDUCED, log 8). -/
def Obligations.WriteOwnership : Prop :=
  ∀ (i : Instr) (s t : State), isHostOperation i = true → exec i s = .next t →
    (i ≠ .findTarget → i ≠ .sessionNew → t.present = s.present ∧ t.tgid = s.tgid ∧ t.uid = s.uid) ∧
    (i ≠ .wake → t.running = s.running) ∧
    (i ≠ .wake → i ≠ .findTarget → t.sstate = s.sstate) ∧
    ((∀ e, i ≠ .expect e) → i ≠ .wake → i ≠ .findTarget → (∀ a, i ≠ .auth a) →
      t.flag .ackOk = s.flag .ackOk ∧ t.trace = s.trace) ∧
    (i ≠ .wake → t.flag .confOk = s.flag .confOk) ∧
    ((∀ r, i ≠ .decode r) →
      t.flag .leadOk = s.flag .leadOk ∧ t.flag .lcsOk = s.flag .lcsOk ∧ t.flag .dcsOk = s.flag .dcsOk ∧
        t.flag .short = s.flag .short) ∧
    ((∀ a, i ≠ .auth a) → t.flag .authOk = s.flag .authOk ∧ t.authStatus = s.authStatus) ∧
    (i ≠ .findTarget → t.flag .found = s.flag .found) ∧
    ((∀ r, i ≠ .decode r) → (∀ e, i ≠ .expect e) → i ≠ .wake → i ≠ .findTarget → (∀ a, i ≠ .auth a) →
      t.diag = s.diag) ∧
    s.trace <+: t.trace ∧ s.diag <+: t.diag ∧
    ((t = refuse s) ∨ (ResultTyped i t.result ∧ t.refused = s.refused))

/-- The frame of the wire rows that are sent or staged: a transport send or a staged answer writes no register of the
session, no flag, no result and no diagnostic; a send grows `TRACE`, a staged answer does not (the model's reading,
log 6 and 7). -/
def Obligations.SentAndStagedRowsKeepSession : Prop :=
  ∀ (i : Instr) (s t : State), isHostOperation i = false → exec i s = .next t →
    t.cfg = s.cfg ∧ t.port = s.port ∧ t.present = s.present ∧ t.tgid = s.tgid ∧ t.uid = s.uid ∧
    t.running = s.running ∧ t.sstate = s.sstate ∧ t.status = s.status ∧ t.authStatus = s.authStatus ∧
    t.diag = s.diag ∧ t.result = s.result ∧ s.trace <+: t.trace ∧
    ((∃ r, encode i = .reply r) → t.trace = s.trace ∧ t.hpc = s.hpc ∧ t.refused = s.refused)

/-- R31, R32, R35: no step shortens or rewrites `DIAG` or `TRACE`, and none clears `REFUSED`. -/
def Obligations.LogsGrowAndRefusedSticks : Prop :=
  ∀ s t : State, step s = .next t →
    s.diag <+: t.diag ∧ s.trace <+: t.trace ∧ (s.refused = true → t.refused = true)

/-- R33: `HPC` advances by exactly 1 when a host operation completes or is refused, and never wraps. That the two
InDataExchange rows, authenticate and READ16, advance it as the ENCODE commands they are is the model's reading
(DEDUCED, log 8). -/
def Obligations.HostOperationAdvancesHpc : Prop :=
  ∀ (i : Instr) (s t : State), isHostOperation i = true → exec i s = .next t → t.hpc = s.hpc + 1

/-- R7, R63: no step writes the configuration. -/
def Obligations.StepKeepsConfiguration : Prop := ∀ s t : State, step s = .next t → t.cfg = s.cfg

/-- R153: no operation is refused, stopped or changed because of `SSTATE` or `RUNNING`. Two runs from states that
differ only there agree in everything else, and each of the two registers is kept in both runs or ends with one value
in both. -/
def Obligations.NoStateGating : Prop :=
  ∀ (i : Instr) (s t : State), s.blankGate = t.blankGate →
    SameOutcome
      (fun s' t' => s'.blankGate = t'.blankGate ∧ WrittenAlike State.sstate s t s' t' ∧
        WrittenAlike State.running s t s' t')
      (exec i s) (exec i t)

/-- The half of R174 that says nothing else reads what AUTH reports (that AUTH reports it stands in
`AuthSendsAndReports`). Two runs from states that differ only in `RESULT`,
`STATUS.AUTH_OK`, `AUTH_STATUS` and `DIAG` agree in everything else, append the same diagnostics, and each of the three
registers is kept in both runs or ends with one value in both. -/
def Obligations.AuthReportIsNotRead : Prop :=
  ∀ (i : Instr) (s t : State), s.blankAuthReport = t.blankAuthReport →
    SameOutcome
      (fun s' t' => s'.blankAuthReport = t'.blankAuthReport ∧ AppendedAlike State.diag s t s' t' ∧
        WrittenAlike State.result s t s' t' ∧ WrittenAlike State.authStatus s t s' t' ∧
        WrittenAlike (State.flag · .authOk) s t s' t')
      (exec i s) (exec i t)

/-- R26, R28, R31 to R35: the flags, logs, results and marks are outputs: no operation reads one. Two runs from states
that differ only in them agree on session, device and queue, append the same events and the same diagnostics, advance
`HPC` alike, and each other output is kept in both runs or ends with one value in both. -/
def Obligations.OutputsAreNeverRead : Prop :=
  ∀ (i : Instr) (s t : State), s.blankOutputs = t.blankOutputs →
    SameOutcome
      (fun s' t' => s'.blankOutputs = t'.blankOutputs ∧ AppendedAlike State.diag s t s' t' ∧
        AppendedAlike State.trace s t s' t' ∧ (∃ k, s'.hpc = s.hpc + k ∧ t'.hpc = t.hpc + k) ∧
        WrittenAlike State.result s t s' t' ∧ WrittenAlike State.authStatus s t s' t' ∧
        WrittenAlike State.running s t s' t' ∧ WrittenAlike State.sstate s t s' t' ∧
        WrittenAlike State.refused s t s' t' ∧ ∀ f : Flag, WrittenAlike (State.flag · f) s t s' t')
      (exec i s) (exec i t)

/-! ### Flags and checksums -/

/-- R28: the eight flags are eight separate bits at the places of the table. -/
def Obligations.StatusFlagsAreSeparate : Prop :=
  ∀ (s : State) (f g : Flag) (v : Bool),
    (s.withFlag f v).flag g = (if g = f then v else s.flag g) ∧
    Flag.ackOk.bit = 0 ∧ Flag.confOk.bit = 1 ∧ Flag.leadOk.bit = 2 ∧ Flag.lcsOk.bit = 3 ∧ Flag.dcsOk.bit = 4 ∧
    Flag.short.bit = 5 ∧ Flag.authOk.bit = 6 ∧ Flag.found.bit = 7

/-- R100: the two formulas, the accumulator bound, and the laws (a) to (f), which the spec marks as derived. -/
def Obligations.ChecksumLaws : Prop :=
  (∀ l : Byte, (lcs l).toNat = (256 - l.toNat) % 256) ∧
  (∀ p : List Byte, (dcs p).toNat = (256 - (p.map BitVec.toNat).sum % 256) % 256) ∧
  (∀ p : List Byte, p.length ≤ 255 → (p.map BitVec.toNat).sum ≤ 65025) ∧
  (∀ l : Byte, (l.toNat + (lcs l).toNat) % 256 = 0) ∧
  (∀ p : List Byte, ((p.map BitVec.toNat).sum + (dcs p).toNat) % 256 = 0) ∧
  lcs 0x00 = 0x00 ∧ dcs [] = 0x00 ∧
  (∀ p : List Byte, dcs p = 0x00 ↔ (p.map BitVec.toNat).sum % 256 = 0) ∧ dcs [0x80, 0x80] = 0x00 ∧
  (∀ l : Byte, lcs (lcs l) = l) ∧ Function.Bijective lcs ∧
  (∀ p q : List Byte, p.Perm q → dcs p = dcs q) ∧
  (∀ l : Byte, lcs l = -l) ∧ (∀ p : List Byte, dcs p = -(BitVec.ofNat 8 (p.map BitVec.toNat).sum))

/-! ### The frame codec -/

/-- R101: the encoding, the whole next state, the refusal of longer payloads, the corner cases and the example. -/
def Obligations.EncodeBuildsFrame : Prop :=
  (∀ (p : List Byte) (l : Byte), p.length = l.toNat → decode (.host (0x01 :: l :: p)) = some (.encode p)) ∧
  (∀ (s : State) (p : List Byte) (l : Byte), p.length = l.toNat →
    exec (.encode p) s =
      .next { s with
        result := .bytes ([0x00, 0x00, 0xFF, l, lcs l] ++ p ++ [dcs p, 0x00])
        hpc := s.hpc + 1 }) ∧
  (∀ (s : State) (p : List Byte), 255 < p.length →
    exec (.encode p) s = .next { s with refused := true, hpc := s.hpc + 1 }) ∧
  (∀ p : List Byte, (encodeFrame p).length = p.length + 7) ∧
  encodeFrame [] = [0x00, 0x00, 0xFF, 0x00, 0x00, 0x00, 0x00] ∧
  (∀ p : List Byte, p.length = 255 → (encodeFrame p).length = 262 ∧ (encodeFrame p)[4]? = some 0x01) ∧
  (∀ p : List Byte, p.length ≤ 255 → (p.map BitVec.toNat).sum % 256 = 0 →
    (encodeFrame p)[p.length + 5]? = some 0x00) ∧
  encodeFrame [0xD4, 0x40, 0x01, 0x30, 0x04] =
    [0x00, 0x00, 0xFF, 0x05, 0xFB, 0xD4, 0x40, 0x01, 0x30, 0x04, 0xB7, 0x00]

/-- R102: the encoding, the whole next state (so `RESULT` is the only register written beside `HPC`), the corner
cases and the example. -/
def Obligations.LcsResult : Prop :=
  (∀ l : Byte, decode (.host [0x03, l]) = some (.lcs l)) ∧
  (∀ (s : State) (l : Byte),
    exec (.lcs l) s = .next { s with result := .byte (BitVec.ofNat 8 ((256 - l.toNat) % 256)), hpc := s.hpc + 1 }) ∧
  lcs 0x00 = 0x00 ∧ lcs 0x01 = 0xFF ∧ lcs 0xFF = 0x01 ∧ lcs 0x05 = 0xFB ∧
  (∀ l : Byte, lcs l = l ↔ l = 0x00 ∨ l = 0x80)

/-- R103: the encoding, the whole next state, the corner cases and the example. -/
def Obligations.DcsResult : Prop :=
  (∀ (p : List Byte) (l : Byte), p.length = l.toNat → decode (.host (0x04 :: l :: p)) = some (.dcs p)) ∧
  (∀ (s : State) (p : List Byte), p.length ≤ 255 →
    exec (.dcs p) s =
      .next { s with
        result := .byte (BitVec.ofNat 8 ((256 - (p.map BitVec.toNat).sum % 256) % 256))
        hpc := s.hpc + 1 }) ∧
  dcs [] = 0x00 ∧ dcs [0x00] = 0x00 ∧ dcs [0xFF] = 0x01 ∧ dcs [0x80, 0x80] = 0x00 ∧
  dcs (List.replicate 255 0xFF) = 0xFF ∧ dcs [0xD5, 0x15] = 0x16

/-- R104 to R107: the encoding, the record, the checks, the flags, the diagnostics in their order, and that nothing
else changes. -/
def Obligations.DecodeParsesImage : Prop :=
  (∀ (r : List Byte) (hi lo : Byte), r.length = hi.toNat * 256 + lo.toNat →
    decode (.host (0x02 :: hi :: lo :: r)) = some (.decode r)) ∧
  (∀ (s : State) (r : List Byte), r.length ≤ 65535 →
    let k := s.cfg.lenOff
    let b := s.cfg.sliceStart
    let n := r.length
    let len : Byte := if k < n then r.getD k 0x00 else 0x00
    let payload := (r.drop (k + 2)).take len.toNat
    let leadOk := decide (b < n ∧ r[b]? = some s.cfg.lead)
    let lcsOk := decide (k + 1 < n ∧ ((r.getD k 0x00).toNat + (r.getD (k + 1) 0x00).toNat) % 256 = 0)
    let dcsOk := decide (k + 2 + len.toNat < n ∧
      ((payload.map BitVec.toNat).sum + (r.getD (k + 2 + len.toNat) 0x00).toNat) % 256 = 0)
    let short := decide (n < b + len.toNat + 8)
    exec (.decode r) s =
      .next { s with
        result := .frame {
          len := len
          slice := (r.drop b).take (len.toNat + 8)
          payload := payload
          lcs := r[k + 1]?
          dcs := r[k + 2 + len.toNat]?
          post := r[k + 3 + len.toNat]?
          leadOk := leadOk
          lcsOk := lcsOk
          dcsOk := dcsOk
          short := short }
        status := setFlag .short short (setFlag .dcsOk dcsOk (setFlag .lcsOk lcsOk (setFlag .leadOk leadOk s.status)))
        diag := s.diag ++ (if leadOk then [] else [.malformedFrame (.lead r[b]?)]) ++
          (if lcsOk then [] else [.malformedFrame (.lcs r[k + 1]?)]) ++
          (if dcsOk then [] else [.malformedFrame (.dcs r[k + 2 + len.toNat]?)]) ++
          (if short then [.malformedFrame (.short n)] else [])
        hpc := s.hpc + 1 })

/-- R108 with the equivalence that R106 marks as derived: DECODE finds an image well-formed exactly when its received
checksums are the checksums of its length and its payload; `WAKE_CONF` is well-formed and short under R7's decided
offsets. -/
def Obligations.WellFormedIffChecksumsMatch : Prop :=
  (∀ (s : State) (r : List Byte), r.length ≤ 65535 →
    ∃ f d, DecodesTo s r f d ∧
      (f.lcsOk = true ∧ f.dcsOk = true ↔ f.lcs = some (lcs f.len) ∧ f.dcs = some (dcs f.payload))) ∧
  (∀ s : State, s.cfg.IsDecided →
    ∃ f d, DecodesTo s wakeConfImage f d ∧ f.lcsOk = true ∧ f.dcsOk = true ∧ f.short = true)

/-- R109, which the spec marks as derived: DECODE recovers the payload of every frame ENCODE builds, all checks pass,
and nothing is logged. -/
def Obligations.DecodeOfEncodedFrame : Prop :=
  ∀ (s : State) (p : List Byte), p.length ≤ 255 → s.cfg.lenOff = 4 → s.cfg.sliceStart = 0 →
    ∃ t, exec (.encode p) s = .next t ∧ ∃ frame, t.result = .bytes frame ∧
      exec (.decode (s.cfg.lead :: frame)) s =
        .next { s with
          result := .frame {
            len := BitVec.ofNat 8 p.length
            slice := s.cfg.lead :: frame
            payload := p
            lcs := some (lcs (BitVec.ofNat 8 p.length))
            dcs := some (dcs p)
            post := some 0x00
            leadOk := true
            lcsOk := true
            dcsOk := true
            short := false }
          status := setFlag .short false (setFlag .dcsOk true (setFlag .lcsOk true (setFlag .leadOk true s.status)))
          hpc := s.hpc + 1 }

/-- R110, which the spec marks as derived, items 1 to 7, under R7's decided offsets. -/
def Obligations.DecodeCornerCases : Prop :=
  ∀ s : State, s.cfg.IsDecided →
    (∃ f, DecodesTo s [] f [.malformedFrame (.lead none), .malformedFrame (.lcs none), .malformedFrame (.dcs none),
        .malformedFrame (.short 0)] ∧
      f.len = 0x00 ∧ f.slice = [] ∧ f.payload = [] ∧ f.leadOk = false ∧ f.lcsOk = false ∧ f.dcsOk = false ∧
      f.short = true) ∧
    (∀ r : List Byte, r.length ≤ 4 →
      ∃ f d, DecodesTo s r f d ∧ f.len = 0x00 ∧ f.lcsOk = false ∧ f.dcsOk = false ∧ f.short = true) ∧
    (∃ f, DecodesTo s [0x01, 0x00, 0x00, 0xFF, 0x00, 0x00, 0x00, 0x00] f [] ∧
      f.payload = [] ∧ f.lcsOk = true ∧ f.dcsOk = true ∧ f.short = false) ∧
    (∃ f, DecodesTo s ackImage f [.malformedFrame (.lcs (some 0xFF)), .malformedFrame (.short 7)] ∧
      f.len = 0x00 ∧ f.lcsOk = false ∧ f.dcsOk = true ∧ f.short = true) ∧
    (∀ n : Nat, 7 ≤ n → n ≤ 65535 →
      ∃ f d, DecodesTo s (List.replicate n 0x00) f d ∧
        f.len = 0x00 ∧ f.leadOk = false ∧ f.lcsOk = true ∧ f.dcsOk = true) ∧
    (∀ r : List Byte, r.length ≤ 65535 →
      ∃ f d, DecodesTo s r f d ∧
        (r.length < f.len.toNat + 8 → f.slice = r) ∧
        (r.length ≤ f.len.toNat + 6 → f.payload = r.drop 6 ∧ f.dcs = none ∧ f.dcsOk = false)) ∧
    (∀ r pad : List Byte, (r ++ pad).length ≤ 65535 → (r.getD 4 0x00).toNat + 8 ≤ r.length →
      ∃ f d, DecodesTo s r f d ∧ DecodesTo s (r ++ pad) f d)

/-- R57: ENCODE, DECODE, LCS and DCS make no transport call, complete whatever the device does, and their result is
a function of the operands and the configuration. -/
def Obligations.PureOperationsNeedNoTransport : Prop :=
  ∀ (i : Instr) (s s' : State), i.wf = true →
    ((∃ p, i = .encode p) ∨ (∃ r, i = .decode r) ∨ (∃ l, i = .lcs l) ∨ (∃ p, i = .dcs p)) → s'.cfg = s.cfg →
    ∃ t t', exec i s = .next t ∧ exec i s' = .next t' ∧ t.trace = s.trace ∧ t.device = s.device ∧
      t.result = t'.result

/-! ### The comparator and the transport -/

/-- R131: the encoding, one read of exactly the expected length (none for an empty sequence), the verdict, the
diagnostic, and that nothing else changes. That the device's answer is `device.answer` and the device goes on as
`afterCalls` is the model's (log 3), and so is the count of calls it completes (log 4). -/
def Obligations.ExpectComparesExactly : Prop :=
  (∀ (e : List Byte) (n : Byte), e.length = n.toNat → decode (.host (0x05 :: n :: e)) = some (.expect e)) ∧
  (∀ s : State,
    exec (.expect []) s =
      .next { s with status := setFlag .ackOk true s.status, result := .bool true, hpc := s.hpc + 1 }) ∧
  (∀ (s : State) (e : List Byte), e ≠ [] → e.length ≤ 255 → e.length ≤ s.cfg.maxRead →
    s.device.completes 1 = true →
    let b := s.device.answer e.length
    ∃ d, MismatchRecords e b d ∧
      exec (.expect e) s =
        .next { s with
          trace := s.trace ++ [.read e.length b]
          device := s.device.afterCalls 0 1
          diag := s.diag ++ d
          status := setFlag .ackOk (decide (b = e)) s.status
          result := .bool (decide (b = e))
          hpc := s.hpc + 1 })

/-- R55: a read returns exactly `n` bytes, and any `n` bytes can be the answer; the scripted ones are. That the
script stands in the state is the model's (log 3). -/
def Obligations.ReadReturnsAnyBytesOfTheLength : Prop :=
  (∀ (d : Device) (n : Nat), (d.answer n).length = n) ∧
  (∀ (d : Device) (r : List Byte) (rest : List (List Byte)), d.staged = r :: rest → d.answer r.length = r) ∧
  (∀ (s : State) (n : Nat), txRead n s =
    { s with trace := s.trace ++ [.read n (s.device.answer n)], device := s.device.afterCalls 0 1 })

/-- R54: a write is the event `W(b)` and its settling delay, and nothing else the host can see. How the
device goes on is the model's (log 4). -/
def Obligations.WriteIsFollowedBySettle : Prop :=
  ∀ (s : State) (b : List Byte),
    txWrite b s = { s with trace := s.trace ++ [.write b, .settle], device := s.device.afterCalls 1 0 }

/-! ### The session -/

/-- R141, R142: WAKE's encoding, its calls in order, both verdicts, and the whole next state, from every state. That
the two answers are the device's script, the device goes on as `afterCalls` (log 3) and completes four calls (log 4)
is the model's. -/
def Obligations.WakeRunsItsSequence : Prop :=
  decode (.host [0x10]) = some .wake ∧
  (∀ s : State, s.cfg.primeBytes.length ≤ s.cfg.maxWrite → s.cfg.samPayload.length ≤ 255 →
    s.cfg.samPayload.length + 7 ≤ s.cfg.maxWrite → 9 ≤ s.cfg.maxRead → s.device.completes 4 = true →
    let r1 := s.device.answer 7
    let r2 := (s.device.afterCalls 0 1).answer 9
    let ok := decide (r1 = ackImage ∧ r2 = wakeConfImage)
    ∃ d1 d2, MismatchRecords ackImage r1 d1 ∧ MismatchRecords wakeConfImage r2 d2 ∧
      exec .wake s =
        .next { s with
          trace := s.trace ++ [.write s.cfg.primeBytes, .settle, .write (encodeFrame s.cfg.samPayload), .settle,
            .read 7 r1, .read 9 r2]
          device := s.device.afterCalls 2 2
          diag := s.diag ++ d1 ++ d2
          status := setFlag .ackOk (decide (r1 = ackImage))
            (setFlag .confOk (decide (r2 = wakeConfImage)) s.status)
          running := if ok then true else if s.cfg.wakeFailClearsRunning then false else s.running
          sstate := if ok then SState.idle else SState.asleep
          result := .bool ok
          hpc := s.hpc + 1 }) ∧
  (∀ c : Config, c.IsDecided → c.primeBytes = [] ∧
    encodeFrame c.samPayload = [0x00, 0x00, 0xFF, 0x03, 0xFD, 0xD4, 0x14, 0x01, 0x17, 0x00])

/-- R145, R146: FIND_TARGET's encoding, its calls in order, the presence test on the second read, the UID window,
and the whole next state, from every state. The device's script and `afterCalls` (log 3) and the count of calls it
completes (log 4) are the model's, and so is a free UID byte where the window lies beyond the read, which R146 rules
out (log 12). -/
def Obligations.FindTargetRecordsSession : Prop :=
  decode (.host [0x11]) = some .findTarget ∧
  (∀ s : State, s.cfg.ilptPayload.length ≤ 255 → s.cfg.ilptPayload.length + 7 ≤ s.cfg.maxWrite →
    7 ≤ s.cfg.maxRead → s.cfg.ilptReadLen ≤ s.cfg.maxRead → s.device.completes 3 = true →
    let r1 := s.device.answer 7
    let r2 := (s.device.afterCalls 0 1).answer s.cfg.ilptReadLen
    let found := decide (r2[s.cfg.markOff]? = some s.cfg.markVal ∧ r2[s.cfg.nbtgOff]? = some s.cfg.nbtgVal)
    ∃ (d1 : List Diag) (u : Uid), MismatchRecords ackImage r1 d1 ∧
      (s.cfg.uidOff + 4 ≤ s.cfg.ilptReadLen → u.toList = (r2.drop s.cfg.uidOff).take 4) ∧
      (∀ (j : Nat) (x : Byte), j < 4 → r2[s.cfg.uidOff + j]? = some x → u.toList[j]? = some x) ∧
      exec .findTarget s =
        .next { s with
          trace := s.trace ++ [.write (encodeFrame s.cfg.ilptPayload), .settle, .read 7 r1,
            .read s.cfg.ilptReadLen r2]
          device := s.device.afterCalls 1 2
          diag := s.diag ++ d1
          present := found
          tgid := if found then s.cfg.tgidFound else 0x00
          uid := if found then u else ⟨0x00, 0x00, 0x00, 0x00⟩
          sstate := if found then SState.targetFound else SState.noTarget
          status := setFlag .found found (setFlag .ackOk (decide (r1 = ackImage)) s.status)
          result := .bool found
          hpc := s.hpc + 1 }) ∧
  (∀ c : Config, c.IsDecided →
    encodeFrame c.ilptPayload = [0x00, 0x00, 0xFF, 0x04, 0xFC, 0xD4, 0x4A, 0x01, 0x00, 0xE1, 0x00] ∧
    c.markOff = 3 ∧ c.markVal = 0xFF ∧ c.nbtgOff = 8 ∧ c.nbtgVal = 0x01 ∧ c.uidOff = 14 ∧ c.ilptReadLen = 20 ∧
    c.tgidFound = 0x01)

/-- R147, which the spec marks as derived: what FIND_TARGET leaves in the session depends only on the configuration
and on the device's answers; each call makes new transport calls; and two in a row that find nothing both end with the
empty session. That the answers are those of the device's script is the model's (log 3). -/
def Obligations.DiscoveryIsIdempotent : Prop :=
  (∀ s s' t t' : State, s.cfg = s'.cfg → s.device = s'.device → exec .findTarget s = .next t →
    exec .findTarget s' = .next t' → t ≠ refuse s → t' ≠ refuse s' →
    t.present = t'.present ∧ t.tgid = t'.tgid ∧ t.uid = t'.uid ∧ t.sstate = t'.sstate ∧ t.result = t'.result ∧
      t.trace.length = s.trace.length + 4) ∧
  (∀ s t u : State, exec .findTarget s = .next t → exec .findTarget t = .next u → t ≠ refuse s → u ≠ refuse t →
    t.result = .bool false → u.result = .bool false →
    (t.present = false ∧ t.tgid = 0x00 ∧ t.uid = ⟨0x00, 0x00, 0x00, 0x00⟩ ∧ t.sstate = SState.noTarget) ∧
    (u.present = false ∧ u.tgid = 0x00 ∧ u.uid = ⟨0x00, 0x00, 0x00, 0x00⟩ ∧ u.sstate = SState.noTarget) ∧
    u.trace.length = s.trace.length + 8)

/-- R150: SESSION_NEW's encoding and whole next state; `SSTATE` keeps its value. -/
def Obligations.SessionNewEmptiesSession : Prop :=
  decode (.host [0x12]) = some .sessionNew ∧
  ∀ s : State, exec .sessionNew s =
    .next { s with
      present := false
      tgid := 0x00
      uid := ⟨0x00, 0x00, 0x00, 0x00⟩
      result := .none
      hpc := s.hpc + 1 }

/-! ### The authenticator -/

/-- R171, R173: AUTH's encoding, its calls in order, the status byte, the diagnostic, and the whole next state. The
device's script and `afterCalls` (log 3) and the count of calls it completes (log 4) are the model's, and so is a free
status byte where the offset lies beyond the read, which R173 rules out (log 12): flag, diagnostic and result follow
it. -/
def Obligations.AuthSendsAndReports : Prop :=
  (∀ a : Byte, decode (.host [0x20, a]) = some (.auth a)) ∧
  (∀ (s : State) (a : Byte), 22 ≤ s.cfg.maxWrite → 7 ≤ s.cfg.maxRead → s.cfg.authReadLen ≤ s.cfg.maxRead →
    s.device.completes 3 = true →
    let r1 := s.device.answer 7
    let r2 := (s.device.afterCalls 0 1).answer s.cfg.authReadLen
    ∃ (d1 : List Diag) (st : Byte), MismatchRecords ackImage r1 d1 ∧
      (s.cfg.authStatusOff < s.cfg.authReadLen → r2[s.cfg.authStatusOff]? = some st) ∧
      exec (.auth a) s =
        .next { s with
          trace := s.trace ++ [.write (encodeFrame ([0xD4, 0x40, s.tgid, s.cfg.authCmd, a] ++ s.cfg.keyA.toList ++
            s.uid.toList)), .settle, .read 7 r1, .read s.cfg.authReadLen r2]
          device := s.device.afterCalls 1 2
          diag := s.diag ++ d1 ++ (if st = 0x00 then [] else [.authFailure a st])
          authStatus := st
          status := setFlag .authOk (decide (st = 0x00)) (setFlag .ackOk (decide (r1 = ackImage)) s.status)
          result := .bool (decide (st = 0x00))
          hpc := s.hpc + 1 }) ∧
  (∀ c : Config, c.IsDecided → c.authReadLen = 11 ∧ c.authStatusOff = 8 ∧ c.authCmd = 0x60 ∧
    encodeFrame ([0xD4, 0x40, 0x01, c.authCmd, 0x04] ++ c.keyA.toList ++ [0xDE, 0xAD, 0xBE, 0xEF]) =
      [0x00, 0x00, 0xFF, 0x0F, 0xF1, 0xD4, 0x40, 0x01, 0x60, 0x04, 0xFF, 0xFF, 0xFF, 0xFF, 0xFF, 0xFF, 0xDE, 0xAD,
        0xBE, 0xEF, 0x55, 0x00])

/-- R175 item 3, R245: zero padding at the status offset reads as success, whatever the acknowledgement was. The
scripted answers (log 3) and the count of calls (log 4) are the model's. -/
def Obligations.AuthZeroPaddingReadsAsSuccess : Prop :=
  ∀ (s : State) (a : Byte), s.cfg.IsDecided → 22 ≤ s.cfg.maxWrite → 11 ≤ s.cfg.maxRead →
    s.device.completes 3 = true →
    (∃ x rest, s.device.staged = x :: List.replicate 11 0x00 :: rest) →
    ∃ t, exec (.auth a) s = .next t ∧ t.result = .bool true ∧ t.flag .authOk = true ∧ t.authStatus = 0x00

/-- R175 item 4, R23, R171: after a discovery answered by the image of R80 with one target, AUTH sends a command
that carries that UID and the target number of R7. Staging the images (log 7), the script (log 3)
and a device that never stalls (log 4) are the model's reading. -/
def Obligations.AuthCarriesDiscoveredUid : Prop :=
  ∀ (s : State) (tg s0 s1 sel idl a : Byte) (u : Uid), s.cfg.IsDecided → 22 ≤ s.cfg.maxWrite → 20 ≤ s.cfg.maxRead →
    s.device.staged = [] → s.device.callsLeft = none →
    ∃ s1' s2 s3 t, exec .wireAck s = .next s1' ∧
      exec (.wireInListPassiveTargetResp 0x01 tg s0 s1 sel idl u) s1' = .next s2 ∧
      exec .findTarget s2 = .next s3 ∧ s3.result = .bool true ∧ s3.uid = u ∧ s3.tgid = 0x01 ∧ s3.diag = s.diag ∧
      exec (.auth a) s3 = .next t ∧
      .write (encodeFrame ([0xD4, 0x40, 0x01, 0x60, a, 0xFF, 0xFF, 0xFF, 0xFF, 0xFF, 0xFF] ++ u.toList)) ∈ t.trace

/-! ### Diagnostics, refusal, stall -/

/-- R202: a raise appends its record and changes nothing else. -/
def Obligations.RaiseOnlyAppends : Prop :=
  ∀ (s : State) (d : Diag), raise d s = { s with diag := s.diag ++ [d] }

/-- R200: the numeric codes of the diagnostics and the sub-cause numbers of `MALFORMED_FRAME`. That the records stand
as constructors with these numbers beside them is the model's (log 20). -/
def Obligations.DiagnosticsHaveTheTablesNumbers : Prop :=
  (∀ (j : Nat) (b : List Byte), (Diag.transportMismatch j b).code = 0x01) ∧
  (∀ m : Malformed, (Diag.malformedFrame m).code = 0x02) ∧
  (∀ a st : Byte, (Diag.authFailure a st).code = 0x03) ∧
  Diag.oversizeInput.code = 0x04 ∧ Diag.illegalAddress.code = 0x05 ∧
  (∀ b : Option Byte, (Malformed.lead b).subCause = 1 ∧ (Malformed.lcs b).subCause = 2 ∧
    (Malformed.dcs b).subCause = 3) ∧
  ∀ n : Nat, (Malformed.short n).subCause = 4

/-- R51, with R56 and R170: the FCB sends only the commands its rules list, and reaches the card's memory units by the
address operand of AUTH alone, every address of it as given; a request that is no row of the table sends nothing. That
the rows of R78 and R79 send by themselves, and that a row or payload that names a memory unit is formed only, is the
model's reading (log 6, log 8, log 13; the queue log 5). -/
def Obligations.CardIsReachedOnlyByAuth : Prop :=
  (∀ (i : Instr) (s t : State), exec i s = .next t →
    ∃ ev, t.trace = s.trace ++ ev ∧ ∀ b, Event.write b ∈ ev →
      (i = .wake ∧ (b = s.cfg.primeBytes ∨ b = encodeFrame s.cfg.samPayload)) ∨
      (i = .findTarget ∧ b = encodeFrame s.cfg.ilptPayload) ∨
      (∃ a, i = .auth a ∧
        b = encodeFrame ([0xD4, 0x40, s.tgid, s.cfg.authCmd, a] ++ s.cfg.keyA.toList ++ s.uid.toList)) ∨
      (∃ m, i = .wireSamConfiguration m ∧ b = encodeFrame [0xD4, 0x14, m]) ∨
      ∃ x y, i = .wireInListPassiveTarget x y ∧ b = encodeFrame [0xD4, 0x4A, x, y]) ∧
  ∀ (s t : State) (q : Request) (rest : List Request), s.port = q :: rest → decode q = none → step s = .next t →
    t.trace = s.trace

/-- R201, which the spec marks as derived: an operation appends only the diagnostics its rule raises. -/
def Obligations.RaiseSites : Prop :=
  ∀ (i : Instr) (s t : State), exec i s = .next t →
    ∃ d, t.diag = s.diag ++ d ∧ ∀ x ∈ d, MayRaise i x

/-- R89, R205, R210: each refusal the rules list sets `REFUSED`, advances `HPC` and changes no other register. That a
step takes the refused command off the queue is the model's (log 5), and that one call over the limits refuses the
operation before its first event and before a stall is read from R54, R55 and V-REF-5 (log 11). -/
def Obligations.RefusalRule : Prop :=
  (∀ (s : State) (op : Byte) (ops : List Byte) (rest : List Request), ReservedOpcode op →
    s.port = .host (op :: ops) :: rest →
    step s = .next { s with port := rest, refused := true, hpc := s.hpc + 1 }) ∧
  (∀ (s : State) (c : List Byte) (rest : List Request), LengthMismatch c → s.port = .host c :: rest →
    step s = .next { s with port := rest, refused := true, hpc := s.hpc + 1 }) ∧
  (∀ s : State,
    let refused : Host.Outcome State Fault Refusal := .next { s with refused := true, hpc := s.hpc + 1 }
    (∀ e : List Byte, s.cfg.maxRead < e.length → exec (.expect e) s = refused) ∧
    (s.cfg.maxWrite < s.cfg.primeBytes.length ∨ s.cfg.maxWrite < s.cfg.samPayload.length + 7 ∨ s.cfg.maxRead < 9 →
      exec .wake s = refused) ∧
    (s.cfg.maxWrite < s.cfg.ilptPayload.length + 7 ∨ s.cfg.maxRead < 7 ∨ s.cfg.maxRead < s.cfg.ilptReadLen →
      exec .findTarget s = refused) ∧
    (∀ a : Byte, s.cfg.maxWrite < 22 ∨ s.cfg.maxRead < 7 ∨ s.cfg.maxRead < s.cfg.authReadLen →
      exec (.auth a) s = refused) ∧
    (∀ p : List Byte, 255 < p.length → exec (.encode p) s = refused))

/-- The model's further refusals: operands no command can carry, the same for a command payload that is no row of the
table, and the empty command, which has no opcode (log 10, log 13; the queue log 5), a configured payload over 255
bytes (log 11), and a wire command over the write limit (log 6). -/
def Obligations.FurtherRefusals : Prop :=
  (∀ s : State,
    let refused : Host.Outcome State Fault Refusal := .next { s with refused := true, hpc := s.hpc + 1 }
    (∀ r : List Byte, 65535 < r.length → exec (.decode r) s = refused) ∧
    (∀ p : List Byte, 255 < p.length → exec (.dcs p) s = refused) ∧
    (∀ e : List Byte, 255 < e.length → exec (.expect e) s = refused) ∧
    (255 < s.cfg.samPayload.length → exec .wake s = refused) ∧
    (255 < s.cfg.ilptPayload.length → exec .findTarget s = refused) ∧
    (∀ m : Byte, s.cfg.maxWrite < 10 → exec (.wireSamConfiguration m) s = refused) ∧
    (∀ x y : Byte, s.cfg.maxWrite < 11 → exec (.wireInListPassiveTarget x y) s = refused)) ∧
  (∀ (s : State) (rest : List Request), s.port = .host [] :: rest →
    step s = .next { s with port := rest, refused := true, hpc := s.hpc + 1 }) ∧
  (∀ (s : State) (p : List Byte) (rest : List Request), decode (.command p) = none → s.port = .command p :: rest →
    255 < p.length →
    step s = .next { s with port := rest, refused := true, hpc := s.hpc + 1 })

/-- R58, R206: where the device does not complete every call the operation makes, the FCB has no step. The outcome's
name and the count of calls are the model's (log 4), and so is a wire command as an operation of one call (log 6). -/
def Obligations.StalledOperationHasNoStep : Prop :=
  ∀ s : State,
    let stuck : Host.Outcome State Fault Refusal := .fault .deviceStall
    (∀ e : List Byte, e ≠ [] → e.length ≤ 255 → e.length ≤ s.cfg.maxRead → s.device.completes 1 = false →
      exec (.expect e) s = stuck) ∧
    (s.cfg.primeBytes.length ≤ s.cfg.maxWrite → s.cfg.samPayload.length ≤ 255 →
      s.cfg.samPayload.length + 7 ≤ s.cfg.maxWrite → 9 ≤ s.cfg.maxRead → s.device.completes 4 = false →
      exec .wake s = stuck) ∧
    (s.cfg.ilptPayload.length ≤ 255 → s.cfg.ilptPayload.length + 7 ≤ s.cfg.maxWrite → 7 ≤ s.cfg.maxRead →
      s.cfg.ilptReadLen ≤ s.cfg.maxRead → s.device.completes 3 = false → exec .findTarget s = stuck) ∧
    (∀ a : Byte, 22 ≤ s.cfg.maxWrite → 7 ≤ s.cfg.maxRead → s.cfg.authReadLen ≤ s.cfg.maxRead →
      s.device.completes 3 = false → exec (.auth a) s = stuck) ∧
    (s.device.completes 1 = false →
      (∀ m : Byte, 10 ≤ s.cfg.maxWrite → exec (.wireSamConfiguration m) s = stuck) ∧
      ∀ x y : Byte, 11 ≤ s.cfg.maxWrite → exec (.wireInListPassiveTarget x y) s = stuck)

/-! ### The wire rows -/

/-- R78, R79, R70, R54: each of these two wire commands is one write of its frame and its settling delay, and nothing
else changes. That the row alone is one transport step (log 6) and the count of calls (log 4) are the model's reading.
-/
def Obligations.WireCommandsSendTheirFrames : Prop :=
  ∀ s : State, s.device.completes 1 = true →
    let sent (frame : List Byte) : Host.Outcome State Fault Refusal :=
      .next { s with trace := s.trace ++ [.write frame, .settle], device := s.device.afterCalls 1 0 }
    (∀ m : Byte, 10 ≤ s.cfg.maxWrite →
      exec (.wireSamConfiguration m) s =
        sent [0x00, 0x00, 0xFF, 0x03, 0xFD, 0xD4, 0x14, m, dcs [0xD4, 0x14, m], 0x00]) ∧
    (∀ x y : Byte, 11 ≤ s.cfg.maxWrite →
      exec (.wireInListPassiveTarget x y) s =
        sent [0x00, 0x00, 0xFF, 0x04, 0xFC, 0xD4, 0x4A, x, y, dcs [0xD4, 0x4A, x, y], 0x00])

/-- R81, R51: the authenticate row is the ENCODE command of its payload, whose frame is the result, and nothing is
sent: AUTH alone sends such a frame (the model's reading, log 8). -/
def Obligations.WireAuthAIsEncode : Prop :=
  ∀ (s : State) (tg a : Byte) (k : Key) (u : Uid),
    let p : List Byte := [0xD4, 0x40, tg, 0x60, a] ++ k.toList ++ u.toList
    decode (.host (0x01 :: 0x0F :: p)) = some (.encode p) ∧
    exec (.wireInDataExchangeAuthA tg a k u) s = exec (.encode p) s ∧
    exec (.wireInDataExchangeAuthA tg a k u) s =
      .next { s with
        result := .bytes ([0x00, 0x00, 0xFF, 0x0F, 0xF1] ++ p ++ [dcs p, 0x00])
        hpc := s.hpc + 1 }

/-- R83, R91: READ16 is the ENCODE command of its payload (log 8). -/
def Obligations.Read16IsEncode : Prop :=
  ∀ (s : State) (tg a : Byte),
    decode (.host [0x01, 0x05, 0xD4, 0x40, tg, 0x30, a]) = some (.encode [0xD4, 0x40, tg, 0x30, a]) ∧
    exec (.wireInDataExchangeRead16 tg a) s = exec (.encode [0xD4, 0x40, tg, 0x30, a]) s ∧
    exec (.wireInDataExchangeRead16 tg a) s =
      .next { s with
        result := .bytes [0x00, 0x00, 0xFF, 0x05, 0xFB, 0xD4, 0x40, tg, 0x30, a, dcs [0xD4, 0x40, tg, 0x30, a], 0x00]
        hpc := s.hpc + 1 }

/-- R73, R74, R80, R82: each response row stages its image behind the answers already staged, and nothing else
changes. That the row is the device's step is the model's reading (log 7). -/
def Obligations.WireRepliesAreStaged : Prop :=
  ∀ s : State,
    let staged (image : List Byte) : Host.Outcome State Fault Refusal :=
      .next { s with device := { s.device with staged := s.device.staged ++ [image] } }
    exec .wireAck s = staged [0x01, 0x00, 0x00, 0xFF, 0x00, 0xFF, 0x00] ∧
    exec .wireWakeConf s = staged [0x01, 0x00, 0x00, 0xFF, 0x02, 0xFE, 0xD5, 0x15, 0x16] ∧
    (∀ (nb tg s0 s1 sel idl : Byte) (u : Uid),
      exec (.wireInListPassiveTargetResp nb tg s0 s1 sel idl u) s =
        staged ([0x01, 0x00, 0x00, 0xFF, 0x0C, 0xF4, 0xD5, 0x4B, nb, tg, s0, s1, sel, idl] ++ u.toList ++
          [dcs ([0xD5, 0x4B, nb, tg, s0, s1, sel, idl] ++ u.toList), 0x00])) ∧
    (∀ st : Byte,
      exec (.wireInDataExchangeResp st) s =
        staged [0x01, 0x00, 0x00, 0xFF, 0x03, 0xFD, 0xD5, 0x41, st, dcs [0xD5, 0x41, st], 0x00])

/-- R132, R141 with R73 and R74: a WAKE answered by the two staged constants succeeds, logs nothing, and ends
running and idle. That the rows stage their images (log 7), that a staged image is the next answer (log 3) and that
the device never stalls here (log 4) is the model's. -/
def Obligations.WakeSucceedsOnStagedConstants : Prop :=
  ∀ s : State, s.cfg.IsDecided → 10 ≤ s.cfg.maxWrite → 9 ≤ s.cfg.maxRead → s.device.staged = [] →
    s.device.callsLeft = none →
    ∃ s1 s2 t, exec .wireAck s = .next s1 ∧ exec .wireWakeConf s1 = .next s2 ∧ exec .wake s2 = .next t ∧
      t.result = .bool true ∧ t.running = true ∧ t.sstate = SState.idle ∧ t.flag .ackOk = true ∧
      t.flag .confOk = true ∧ t.diag = s.diag ∧
      t.trace = s.trace ++ [.write [], .settle, .write [0x00, 0x00, 0xFF, 0x03, 0xFD, 0xD4, 0x14, 0x01, 0x17, 0x00],
        .settle, .read 7 ackImage, .read 9 wakeConfImage]
end

