-- ==== Sys2Proof/Laws/State.lean ====
section
/-! SUPPORT. One lemma per field of State per shared update, each true by rfl: later proofs never unfold a record
update. -/

namespace Sys2Proof.Machine

@[simp] theorem withFlag_cfg (s : State) (f : Flag) (v : Bool) : (s.withFlag f v).cfg = s.cfg := rfl
@[simp] theorem withFlag_port (s : State) (f : Flag) (v : Bool) : (s.withFlag f v).port = s.port := rfl
@[simp] theorem withFlag_device (s : State) (f : Flag) (v : Bool) : (s.withFlag f v).device = s.device := rfl
@[simp] theorem withFlag_present (s : State) (f : Flag) (v : Bool) : (s.withFlag f v).present = s.present := rfl
@[simp] theorem withFlag_tgid (s : State) (f : Flag) (v : Bool) : (s.withFlag f v).tgid = s.tgid := rfl
@[simp] theorem withFlag_uid (s : State) (f : Flag) (v : Bool) : (s.withFlag f v).uid = s.uid := rfl
@[simp] theorem withFlag_running (s : State) (f : Flag) (v : Bool) : (s.withFlag f v).running = s.running := rfl
@[simp] theorem withFlag_sstate (s : State) (f : Flag) (v : Bool) : (s.withFlag f v).sstate = s.sstate := rfl
@[simp] theorem withFlag_status (s : State) (f : Flag) (v : Bool) : (s.withFlag f v).status = setFlag f v s.status := rfl
@[simp] theorem withFlag_authStatus (s : State) (f : Flag) (v : Bool) : (s.withFlag f v).authStatus = s.authStatus := rfl
@[simp] theorem withFlag_diag (s : State) (f : Flag) (v : Bool) : (s.withFlag f v).diag = s.diag := rfl
@[simp] theorem withFlag_trace (s : State) (f : Flag) (v : Bool) : (s.withFlag f v).trace = s.trace := rfl
@[simp] theorem withFlag_hpc (s : State) (f : Flag) (v : Bool) : (s.withFlag f v).hpc = s.hpc := rfl
@[simp] theorem withFlag_result (s : State) (f : Flag) (v : Bool) : (s.withFlag f v).result = s.result := rfl
@[simp] theorem withFlag_refused (s : State) (f : Flag) (v : Bool) : (s.withFlag f v).refused = s.refused := rfl

@[simp] theorem raise_cfg (s : State) (d : Diag) : (raise d s).cfg = s.cfg := rfl
@[simp] theorem raise_port (s : State) (d : Diag) : (raise d s).port = s.port := rfl
@[simp] theorem raise_device (s : State) (d : Diag) : (raise d s).device = s.device := rfl
@[simp] theorem raise_present (s : State) (d : Diag) : (raise d s).present = s.present := rfl
@[simp] theorem raise_tgid (s : State) (d : Diag) : (raise d s).tgid = s.tgid := rfl
@[simp] theorem raise_uid (s : State) (d : Diag) : (raise d s).uid = s.uid := rfl
@[simp] theorem raise_running (s : State) (d : Diag) : (raise d s).running = s.running := rfl
@[simp] theorem raise_sstate (s : State) (d : Diag) : (raise d s).sstate = s.sstate := rfl
@[simp] theorem raise_status (s : State) (d : Diag) : (raise d s).status = s.status := rfl
@[simp] theorem raise_authStatus (s : State) (d : Diag) : (raise d s).authStatus = s.authStatus := rfl
@[simp] theorem raise_diag (s : State) (d : Diag) : (raise d s).diag = s.diag ++ [d] := rfl
@[simp] theorem raise_trace (s : State) (d : Diag) : (raise d s).trace = s.trace := rfl
@[simp] theorem raise_hpc (s : State) (d : Diag) : (raise d s).hpc = s.hpc := rfl
@[simp] theorem raise_result (s : State) (d : Diag) : (raise d s).result = s.result := rfl
@[simp] theorem raise_refused (s : State) (d : Diag) : (raise d s).refused = s.refused := rfl

@[simp] theorem refuse_cfg (s : State) : (refuse s).cfg = s.cfg := rfl
@[simp] theorem refuse_port (s : State) : (refuse s).port = s.port := rfl
@[simp] theorem refuse_device (s : State) : (refuse s).device = s.device := rfl
@[simp] theorem refuse_present (s : State) : (refuse s).present = s.present := rfl
@[simp] theorem refuse_tgid (s : State) : (refuse s).tgid = s.tgid := rfl
@[simp] theorem refuse_uid (s : State) : (refuse s).uid = s.uid := rfl
@[simp] theorem refuse_running (s : State) : (refuse s).running = s.running := rfl
@[simp] theorem refuse_sstate (s : State) : (refuse s).sstate = s.sstate := rfl
@[simp] theorem refuse_status (s : State) : (refuse s).status = s.status := rfl
@[simp] theorem refuse_authStatus (s : State) : (refuse s).authStatus = s.authStatus := rfl
@[simp] theorem refuse_diag (s : State) : (refuse s).diag = s.diag := rfl
@[simp] theorem refuse_trace (s : State) : (refuse s).trace = s.trace := rfl
@[simp] theorem refuse_hpc (s : State) : (refuse s).hpc = s.hpc + 1 := rfl
@[simp] theorem refuse_result (s : State) : (refuse s).result = s.result := rfl
@[simp] theorem refuse_refused (s : State) : (refuse s).refused = true := rfl

@[simp] theorem complete_cfg (s : State) (r : Result) : (complete r s).cfg = s.cfg := rfl
@[simp] theorem complete_port (s : State) (r : Result) : (complete r s).port = s.port := rfl
@[simp] theorem complete_device (s : State) (r : Result) : (complete r s).device = s.device := rfl
@[simp] theorem complete_present (s : State) (r : Result) : (complete r s).present = s.present := rfl
@[simp] theorem complete_tgid (s : State) (r : Result) : (complete r s).tgid = s.tgid := rfl
@[simp] theorem complete_uid (s : State) (r : Result) : (complete r s).uid = s.uid := rfl
@[simp] theorem complete_running (s : State) (r : Result) : (complete r s).running = s.running := rfl
@[simp] theorem complete_sstate (s : State) (r : Result) : (complete r s).sstate = s.sstate := rfl
@[simp] theorem complete_status (s : State) (r : Result) : (complete r s).status = s.status := rfl
@[simp] theorem complete_authStatus (s : State) (r : Result) : (complete r s).authStatus = s.authStatus := rfl
@[simp] theorem complete_diag (s : State) (r : Result) : (complete r s).diag = s.diag := rfl
@[simp] theorem complete_trace (s : State) (r : Result) : (complete r s).trace = s.trace := rfl
@[simp] theorem complete_hpc (s : State) (r : Result) : (complete r s).hpc = s.hpc + 1 := rfl
@[simp] theorem complete_result (s : State) (r : Result) : (complete r s).result = r := rfl
@[simp] theorem complete_refused (s : State) (r : Result) : (complete r s).refused = s.refused := rfl

@[simp] theorem stage_cfg (s : State) (b : List Byte) : (stage b s).cfg = s.cfg := rfl
@[simp] theorem stage_port (s : State) (b : List Byte) : (stage b s).port = s.port := rfl
@[simp] theorem stage_device (s : State) (b : List Byte) : (stage b s).device = { s.device with staged := s.device.staged ++ [b] } := rfl
@[simp] theorem stage_present (s : State) (b : List Byte) : (stage b s).present = s.present := rfl
@[simp] theorem stage_tgid (s : State) (b : List Byte) : (stage b s).tgid = s.tgid := rfl
@[simp] theorem stage_uid (s : State) (b : List Byte) : (stage b s).uid = s.uid := rfl
@[simp] theorem stage_running (s : State) (b : List Byte) : (stage b s).running = s.running := rfl
@[simp] theorem stage_sstate (s : State) (b : List Byte) : (stage b s).sstate = s.sstate := rfl
@[simp] theorem stage_status (s : State) (b : List Byte) : (stage b s).status = s.status := rfl
@[simp] theorem stage_authStatus (s : State) (b : List Byte) : (stage b s).authStatus = s.authStatus := rfl
@[simp] theorem stage_diag (s : State) (b : List Byte) : (stage b s).diag = s.diag := rfl
@[simp] theorem stage_trace (s : State) (b : List Byte) : (stage b s).trace = s.trace := rfl
@[simp] theorem stage_hpc (s : State) (b : List Byte) : (stage b s).hpc = s.hpc := rfl
@[simp] theorem stage_result (s : State) (b : List Byte) : (stage b s).result = s.result := rfl
@[simp] theorem stage_refused (s : State) (b : List Byte) : (stage b s).refused = s.refused := rfl

@[simp] theorem txWrite_cfg (s : State) (b : List Byte) : (txWrite b s).cfg = s.cfg := rfl
@[simp] theorem txWrite_port (s : State) (b : List Byte) : (txWrite b s).port = s.port := rfl
@[simp] theorem txWrite_device (s : State) (b : List Byte) : (txWrite b s).device = s.device.afterWrite := rfl
@[simp] theorem txWrite_present (s : State) (b : List Byte) : (txWrite b s).present = s.present := rfl
@[simp] theorem txWrite_tgid (s : State) (b : List Byte) : (txWrite b s).tgid = s.tgid := rfl
@[simp] theorem txWrite_uid (s : State) (b : List Byte) : (txWrite b s).uid = s.uid := rfl
@[simp] theorem txWrite_running (s : State) (b : List Byte) : (txWrite b s).running = s.running := rfl
@[simp] theorem txWrite_sstate (s : State) (b : List Byte) : (txWrite b s).sstate = s.sstate := rfl
@[simp] theorem txWrite_status (s : State) (b : List Byte) : (txWrite b s).status = s.status := rfl
@[simp] theorem txWrite_authStatus (s : State) (b : List Byte) : (txWrite b s).authStatus = s.authStatus := rfl
@[simp] theorem txWrite_diag (s : State) (b : List Byte) : (txWrite b s).diag = s.diag := rfl
@[simp] theorem txWrite_trace (s : State) (b : List Byte) : (txWrite b s).trace = s.trace ++ [.write b, .settle] := rfl
@[simp] theorem txWrite_hpc (s : State) (b : List Byte) : (txWrite b s).hpc = s.hpc := rfl
@[simp] theorem txWrite_result (s : State) (b : List Byte) : (txWrite b s).result = s.result := rfl
@[simp] theorem txWrite_refused (s : State) (b : List Byte) : (txWrite b s).refused = s.refused := rfl

@[simp] theorem txRead_cfg (s : State) (n : Nat) : (txRead n s).cfg = s.cfg := rfl
@[simp] theorem txRead_port (s : State) (n : Nat) : (txRead n s).port = s.port := rfl
@[simp] theorem txRead_device (s : State) (n : Nat) : (txRead n s).device = s.device.afterRead := rfl
@[simp] theorem txRead_present (s : State) (n : Nat) : (txRead n s).present = s.present := rfl
@[simp] theorem txRead_tgid (s : State) (n : Nat) : (txRead n s).tgid = s.tgid := rfl
@[simp] theorem txRead_uid (s : State) (n : Nat) : (txRead n s).uid = s.uid := rfl
@[simp] theorem txRead_running (s : State) (n : Nat) : (txRead n s).running = s.running := rfl
@[simp] theorem txRead_sstate (s : State) (n : Nat) : (txRead n s).sstate = s.sstate := rfl
@[simp] theorem txRead_status (s : State) (n : Nat) : (txRead n s).status = s.status := rfl
@[simp] theorem txRead_authStatus (s : State) (n : Nat) : (txRead n s).authStatus = s.authStatus := rfl
@[simp] theorem txRead_diag (s : State) (n : Nat) : (txRead n s).diag = s.diag := rfl
@[simp] theorem txRead_trace (s : State) (n : Nat) : (txRead n s).trace = s.trace ++ [.read n (txReadBytes n s)] := rfl
@[simp] theorem txRead_hpc (s : State) (n : Nat) : (txRead n s).hpc = s.hpc := rfl
@[simp] theorem txRead_result (s : State) (n : Nat) : (txRead n s).result = s.result := rfl
@[simp] theorem txRead_refused (s : State) (n : Nat) : (txRead n s).refused = s.refused := rfl

@[simp] theorem emptySession_cfg (s : State) : (emptySession s).cfg = s.cfg := rfl
@[simp] theorem emptySession_port (s : State) : (emptySession s).port = s.port := rfl
@[simp] theorem emptySession_device (s : State) : (emptySession s).device = s.device := rfl
@[simp] theorem emptySession_present (s : State) : (emptySession s).present = false := rfl
@[simp] theorem emptySession_tgid (s : State) : (emptySession s).tgid = 0x00 := rfl
@[simp] theorem emptySession_uid (s : State) : (emptySession s).uid = zeroUid := rfl
@[simp] theorem emptySession_running (s : State) : (emptySession s).running = s.running := rfl
@[simp] theorem emptySession_sstate (s : State) : (emptySession s).sstate = s.sstate := rfl
@[simp] theorem emptySession_status (s : State) : (emptySession s).status = s.status := rfl
@[simp] theorem emptySession_authStatus (s : State) : (emptySession s).authStatus = s.authStatus := rfl
@[simp] theorem emptySession_diag (s : State) : (emptySession s).diag = s.diag := rfl
@[simp] theorem emptySession_trace (s : State) : (emptySession s).trace = s.trace := rfl
@[simp] theorem emptySession_hpc (s : State) : (emptySession s).hpc = s.hpc := rfl
@[simp] theorem emptySession_result (s : State) : (emptySession s).result = s.result := rfl
@[simp] theorem emptySession_refused (s : State) : (emptySession s).refused = s.refused := rfl

@[simp] theorem take_cfg (s : State) (q : List Request) : (s.take q).cfg = s.cfg := rfl
@[simp] theorem take_port (s : State) (q : List Request) : (s.take q).port = q := rfl
@[simp] theorem take_device (s : State) (q : List Request) : (s.take q).device = s.device := rfl
@[simp] theorem take_present (s : State) (q : List Request) : (s.take q).present = s.present := rfl
@[simp] theorem take_tgid (s : State) (q : List Request) : (s.take q).tgid = s.tgid := rfl
@[simp] theorem take_uid (s : State) (q : List Request) : (s.take q).uid = s.uid := rfl
@[simp] theorem take_running (s : State) (q : List Request) : (s.take q).running = s.running := rfl
@[simp] theorem take_sstate (s : State) (q : List Request) : (s.take q).sstate = s.sstate := rfl
@[simp] theorem take_status (s : State) (q : List Request) : (s.take q).status = s.status := rfl
@[simp] theorem take_authStatus (s : State) (q : List Request) : (s.take q).authStatus = s.authStatus := rfl
@[simp] theorem take_diag (s : State) (q : List Request) : (s.take q).diag = s.diag := rfl
@[simp] theorem take_trace (s : State) (q : List Request) : (s.take q).trace = s.trace := rfl
@[simp] theorem take_hpc (s : State) (q : List Request) : (s.take q).hpc = s.hpc := rfl
@[simp] theorem take_result (s : State) (q : List Request) : (s.take q).result = s.result := rfl
@[simp] theorem take_refused (s : State) (q : List Request) : (s.take q).refused = s.refused := rfl

end Sys2Proof.Machine
end

