-- ==== Sys2Proof/Laws/Flags.lean ====
section
/-! SUPPORT. `STATUS` as eight independent flags (R28). -/

namespace Sys2Proof.Machine

theorem Flag.bit_lt (f : Flag) : f.bit < 8 := by cases f <;> decide

theorem Flag.bit_inj {f g : Flag} : f.bit = g.bit ↔ f = g := by cases f <;> cases g <;> decide

theorem getLsbD_setFlag (f : Flag) (v : Bool) (st : BitVec 8) (i : Nat) :
    (setFlag f v st).getLsbD i = if i = f.bit then v else st.getLsbD i := by
  have h := f.bit_lt
  by_cases hi : i < 8
  · by_cases he : i = f.bit
    · subst he
      cases v <;> simp [setFlag, hi]
    · rcases Nat.lt_or_gt_of_ne he with hlt | hgt
      · simp [setFlag, hi, he, hlt]
      · have h1 : ¬ i < f.bit := by omega
        have h2 : i - f.bit ≠ 0 := by omega
        cases v <;> simp [setFlag, hi, he, h1, h2]
  · simp [BitVec.getLsbD_of_ge _ _ (Nat.le_of_not_lt hi)]
    omega

/-- A flag written is the flag read back, and no other flag changes. -/
@[simp] theorem flag_withFlag (s : State) (f g : Flag) (v : Bool) :
    (s.withFlag f v).flag g = if g = f then v else s.flag g := by
  simp [State.flag, getLsbD_setFlag, Flag.bit_inj]

/-- Two `STATUS` values with the same flags are equal. -/
theorem status_ext {a b : BitVec 8} (h : ∀ f : Flag, a.getLsbD f.bit = b.getLsbD f.bit) : a = b := by
  apply BitVec.eq_of_getLsbD_eq
  intro i hi
  have hf : ∃ f : Flag, f.bit = i := by
    match i, hi with
    | 0, _ => exact ⟨.ackOk, rfl⟩
    | 1, _ => exact ⟨.confOk, rfl⟩
    | 2, _ => exact ⟨.leadOk, rfl⟩
    | 3, _ => exact ⟨.lcsOk, rfl⟩
    | 4, _ => exact ⟨.dcsOk, rfl⟩
    | 5, _ => exact ⟨.short, rfl⟩
    | 6, _ => exact ⟨.authOk, rfl⟩
    | 7, _ => exact ⟨.found, rfl⟩
  obtain ⟨f, rfl⟩ := hf
  exact h f

/-- A flag written twice holds the last value (R9). -/
theorem setFlag_setFlag_same (f : Flag) (v w : Bool) (st : BitVec 8) :
    setFlag f v (setFlag f w st) = setFlag f v st := by
  apply status_ext
  intro g
  simp only [getLsbD_setFlag]
  split <;> rfl

/-- Writes of different flags commute. -/
theorem setFlag_comm {f g : Flag} (h : f ≠ g) (v w : Bool) (st : BitVec 8) :
    setFlag f v (setFlag g w st) = setFlag g w (setFlag f v st) := by
  apply status_ext
  intro k
  simp only [getLsbD_setFlag, Flag.bit_inj]
  by_cases h1 : k = f <;> by_cases h2 : k = g <;> simp_all

end Sys2Proof.Machine
end

