-- ==== Sys2Proof/Laws/Codec.lean ====
section
/-! SUPPORT. Checksums and frames (R70, R100): the small lemmas the codec statements rest on. -/

namespace Sys2Proof.Machine

@[simp] theorem toNat_lcs (l : Byte) : (lcs l).toNat = (256 - l.toNat) % 256 := by
  simp only [lcs, BitVec.toNat_ofNat]; omega

@[simp] theorem toNat_dcs (p : List Byte) : (dcs p).toNat = (256 - byteSum p % 256) % 256 := by
  simp only [dcs, BitVec.toNat_ofNat]; omega

theorem toNat_lenByte {p : List Byte} (h : p.length ≤ 255) : (lenByte p).toNat = p.length := by
  simp only [lenByte, BitVec.toNat_ofNat]; omega

@[simp] theorem length_encodeFrame (p : List Byte) : (encodeFrame p).length = p.length + 7 := by
  simp [encodeFrame]

@[simp] theorem byteSum_append (a b : List Byte) : byteSum (a ++ b) = byteSum a + byteSum b := by
  induction a with
  | nil => simp [byteSum]
  | cons x xs ih => simp [byteSum, ih]; omega

theorem byteSum_perm {a b : List Byte} (h : a.Perm b) : byteSum a = byteSum b := by
  induction h with
  | nil => rfl
  | cons x _ ih => simp [byteSum, ih]
  | swap x y l => simp [byteSum]; omega
  | trans _ _ h1 h2 => exact h1.trans h2

theorem byteSum_le (p : List Byte) : byteSum p ≤ p.length * 255 := by
  induction p with
  | nil => simp [byteSum]
  | cons x xs ih =>
    have := x.isLt
    simp only [byteSum, List.length_cons]
    omega

/-- The test of R106 on the length checksum says the received byte is the checksum (R100 (a), (d)). -/
theorem lcs_test_iff (n x : Byte) : (n.toNat + x.toNat) % 256 = 0 ↔ x = lcs n := by
  have hn := n.isLt
  have hx := x.isLt
  constructor
  · intro h
    apply BitVec.eq_of_toNat_eq
    rw [toNat_lcs]
    omega
  · rintro rfl
    rw [toNat_lcs]
    omega

/-- The test of R106 on the data checksum says the received byte is the checksum (R100 (a)). -/
theorem dcs_test_iff (p : List Byte) (x : Byte) : (byteSum p + x.toNat) % 256 = 0 ↔ x = dcs p := by
  have hx := x.isLt
  constructor
  · intro h
    apply BitVec.eq_of_toNat_eq
    rw [toNat_dcs]
    omega
  · rintro rfl
    rw [toNat_dcs]
    omega

/-- The sub-sequence from `i`, of at most `n` bytes. -/
theorem slice_add (r : List Byte) (i n : Nat) : slice r i (i + n) = (r.drop i).take n := by
  simp [slice, List.drop_take]

theorem announcedLength_eq (c : Config) (r : List Byte) :
    announcedLength c r = if c.lenOff < r.length then r.getD c.lenOff 0x00 else 0x00 := by
  simp only [announcedLength, byteAt]
  split
  · simp
  · rw [List.getElem?_eq_none (by omega)]
    rfl

/-- DECODE's reporting (R107): four flags and at most four records, in order; nothing else changes. -/
theorem reportDecode_eq (r : List Byte) (f : DecodedFrame) (s : State) :
    reportDecode r f s =
      { s with
        status := setFlag .short f.short
          (setFlag .dcsOk f.dcsOk (setFlag .lcsOk f.lcsOk (setFlag .leadOk f.leadOk s.status)))
        diag := s.diag ++ (if f.leadOk then [] else [.malformedFrame (.lead (byteAt r s.cfg.sliceStart))]) ++
          (if f.lcsOk then [] else [.malformedFrame (.lcs f.lcs)]) ++
          (if f.dcsOk then [] else [.malformedFrame (.dcs f.dcs)]) ++
          (if f.short then [.malformedFrame (.short r.length)] else []) } := by
  obtain ⟨len, sl, pay, l, d, p, b1, b2, b3, b4⟩ := f
  cases b1 <;> cases b2 <;> cases b3 <;> cases b4 <;>
    simp [reportDecode, raiseIf, raise, State.withFlag]

end Sys2Proof.Machine
end

