-- ==== Sys2Proof/Laws/Ops.lean ====
section
/-! SUPPORT. One lemma per shared operation of Machine/Ops.lean that says everything it can do. -/

namespace Sys2Proof.Machine

/-! ### The device and the transport -/

/-- A read returns exactly the bytes asked for (R55). -/
@[simp] theorem length_answer (d : Device) (n : Nat) : (d.answer n).length = n := by simp [Device.answer]

/-- A scripted byte is the byte returned. -/
theorem getElem?_answer_of_staged {d : Device} {n i : Nat} {x : Byte} (hi : i < n)
    (hx : (d.staged.headD [])[i]? = some x) : (d.answer n)[i]? = some x := by
  simp only [Device.answer, List.getD_eq_getElem?_getD, List.getElem?_map, List.getElem?_range hi, Option.map_some,
    hx, Option.getD_some]

/-- An answer scripted at full length is the answer. -/
theorem answer_of_staged {d : Device} {r : List Byte} {rest : List (List Byte)} (h : d.staged = r :: rest) :
    d.answer r.length = r := by
  apply List.ext_getElem?
  intro i
  by_cases hi : i < r.length
  · simp [Device.answer, h, hi]
  · simp [Nat.le_of_not_lt hi]

@[simp] theorem answer_afterWrite (d : Device) (n : Nat) : d.afterWrite.answer n = d.answer n := rfl
@[simp] theorem reads_afterWrite (d : Device) : d.afterWrite.reads = d.reads := rfl
@[simp] theorem reads_afterRead (d : Device) : d.afterRead.reads = d.reads + 1 := rfl

theorem callsLeft_sub (c : Option Nat) (a b : Nat) : (c.map (· - a)).map (· - b) = c.map (· - (a + b)) := by
  cases c <;> simp [Nat.sub_sub]

theorem afterWrite_eq (d : Device) : d.afterWrite = d.afterCalls 1 0 := by simp [Device.afterWrite, Device.afterCalls]

theorem afterRead_eq (d : Device) : d.afterRead = d.afterCalls 0 1 := by
  simp [Device.afterRead, Device.afterCalls, List.drop_one]

/-- Calls made one after the other. -/
@[simp] theorem afterCalls_afterCalls (d : Device) (w r w' r' : Nat) :
    (d.afterCalls w r).afterCalls w' r' = d.afterCalls (w + w') (r + r') := by
  simp only [Device.afterCalls, List.drop_drop, callsLeft_sub]
  have h1 : d.reads + r + r' = d.reads + (r + r') := by omega
  have h2 : w + r + (w' + r') = w + w' + (r + r') := by omega
  rw [h1, h2]

@[simp] theorem afterCalls_zero (d : Device) : d.afterCalls 0 0 = d := by
  cases d with
  | mk s r c => cases c <;> simp [Device.afterCalls]

theorem answer_afterCalls_writes (d : Device) (w r n : Nat) :
    (d.afterCalls w r).answer n = (d.afterCalls 0 r).answer n := rfl

/-- The whole transport discipline of `TRACE` is kept by appending well-shaped events. -/
theorem traceOk_append (a b : List Event) (ha : traceOk a = true) (hb : traceOk b = true) :
    traceOk (a ++ b) = true := by
  induction a using traceOk.induct with
  | case1 => simpa using hb
  | case2 _ es ih => simpa [traceOk] using ih (by simpa [traceOk] using ha)
  | case3 n r es ih =>
    simp only [traceOk, Bool.and_eq_true] at ha
    simpa [traceOk, ha.1] using ih ha.2
  | case4 => simp [traceOk] at ha
  | case5 => simp [traceOk] at ha

/-! ### The comparator -/

theorem firstMismatch_none {e b : List Byte} (h : b.length = e.length) : firstMismatch e b = none ↔ b = e := by
  induction e generalizing b with
  | nil => simp_all [firstMismatch]
  | cons x xs ih =>
    cases b with
    | nil => simp at h
    | cons y ys =>
      simp only [List.length_cons, Nat.add_right_cancel_iff] at h
      by_cases hxy : y = x <;> simp [firstMismatch, hxy, ih h]

theorem firstMismatch_some {e b : List Byte} {j : Nat} (h : b.length = e.length) (hj : firstMismatch e b = some j) :
    j < e.length ∧ (∀ i, i < j → b[i]? = e[i]?) ∧ b[j]? ≠ e[j]? := by
  induction e generalizing b j with
  | nil => simp [firstMismatch] at hj
  | cons x xs ih =>
    cases b with
    | nil => simp at h
    | cons y ys =>
      simp only [List.length_cons, Nat.add_right_cancel_iff] at h
      by_cases hxy : y = x
      · simp only [firstMismatch, hxy, if_true, Option.map_eq_some_iff] at hj
        obtain ⟨k, hk, rfl⟩ := hj
        obtain ⟨h1, h2, h3⟩ := ih h hk
        refine ⟨by simpa using h1, ?_, by simpa using h3⟩
        intro i hi
        cases i with
        | zero => simp [hxy]
        | succ i => simpa using h2 i (by omega)
      · simp only [firstMismatch, hxy, if_false, Option.some.injEq] at hj
        subst hj
        simp [hxy]

/-- What the comparator's diagnostic does (R131). -/
theorem raiseMismatch_eq {e b : List Byte} (h : b.length = e.length) (s : State) :
    ∃ d, MismatchRecords e b d ∧ raiseMismatch e b s = { s with diag := s.diag ++ d } := by
  unfold raiseMismatch
  cases hm : firstMismatch e b with
  | none => exact ⟨[], by simp [MismatchRecords, (firstMismatch_none h).1 hm], by simp⟩
  | some j =>
    have hne : b ≠ e := fun he => by simp [(firstMismatch_none h).2 he] at hm
    obtain ⟨h1, h2, h3⟩ := firstMismatch_some h hm
    exact ⟨[.transportMismatch j b], by simp only [MismatchRecords, hne, if_false]; exact ⟨j, h1, h2, h3, rfl⟩, rfl⟩

/-- The comparator's verdict is equality (R131). -/
theorem expectOk_eq (e : List Byte) (s : State) : expectOk e s = decide (s.device.answer e.length = e) := by
  cases e with
  | nil => simp [expectOk, Device.answer]
  | cons x xs =>
    have h := firstMismatch_none (length_answer s.device (x :: xs).length)
    simp only [expectOk, txReadBytes, List.isEmpty_cons, Bool.false_or, ← h]
    cases firstMismatch (x :: xs) (s.device.answer (x :: xs).length) <;> rfl

/-- `EXPECT(e)` inside an operation, for a sequence that is read (R131). -/
theorem expectStep_eq {e : List Byte} (he : e ≠ []) (s : State) :
    ∃ d, MismatchRecords e (s.device.answer e.length) d ∧
      expectStep e s =
        { s with
          trace := s.trace ++ [.read e.length (s.device.answer e.length)]
          device := s.device.afterRead
          diag := s.diag ++ d
          status := setFlag .ackOk (decide (s.device.answer e.length = e)) s.status
          result := .bool (decide (s.device.answer e.length = e)) } := by
  obtain ⟨d, hd, heq⟩ := raiseMismatch_eq (length_answer s.device e.length) (txRead e.length s)
  refine ⟨d, hd, ?_⟩
  have hE : e.isEmpty = false := by simpa using he
  simp only [expectStep, expectRead, hE, Bool.false_eq_true, if_false, txReadBytes, heq, expectOk_eq, State.withFlag]
  rfl

/-- `EXPECT({})` inside an operation: no read, verdict true (D21). -/
theorem expectStep_nil (s : State) :
    expectStep [] s = { s with status := setFlag .ackOk true s.status, result := .bool true } := rfl

/-- The bytes expected and the bytes read fix what is recorded. -/
theorem MismatchRecords.unique {e b : List Byte} {d d' : List Diag} (h : MismatchRecords e b d)
    (h' : MismatchRecords e b d') : d' = d := by
  unfold MismatchRecords at h h'
  split at h
  · simp_all
  · rename_i hne
    simp only [hne, if_false] at h'
    obtain ⟨j, -, hj, hj', rfl⟩ := h
    obtain ⟨k, -, hk, hk', rfl⟩ := h'
    rcases Nat.lt_trichotomy j k with q | rfl | q
    · exact absurd (hk j q) hj'
    · rfl
    · exact absurd (hj k q) hk'

theorem MismatchRecords.raised {e b : List Byte} {d : List Diag} (h : MismatchRecords e b d) :
    d.all raisedByFcb = true := by
  unfold MismatchRecords at h
  split at h
  · simp [h]
  · obtain ⟨j, -, -, -, rfl⟩ := h
    rfl

/-! ### How an instruction runs -/

/-- An operation without transport calls always answers a next state. -/
theorem runPure_next {ok : Bool} {f : State → State} {s t : State} (h : runPure ok f s = .next t) :
    (ok = true ∧ t = f s) ∨ (ok = false ∧ t = refuse s) := by
  cases ok <;> simp_all [runPure]

/-- What an operation with transport calls can answer as a next state. -/
theorem runTransport_next {ok : Bool} {k : Nat} {f : State → State} {s t : State}
    (h : runTransport ok k f s = .next t) :
    (ok = true ∧ s.device.completes k = true ∧ t = f s) ∨ (ok = false ∧ t = refuse s) := by
  cases ok <;> cases hc : s.device.completes k <;> simp_all [runTransport]

theorem runTransport_runs {ok : Bool} {k : Nat} {f : State → State} {s : State} (h : ok = true)
    (hc : s.device.completes k = true) : runTransport ok k f s = .next (f s) := by simp [runTransport, h, hc]

theorem runTransport_stalls {ok : Bool} {k : Nat} {f : State → State} {s : State} (h : ok = true)
    (hc : s.device.completes k = false) : runTransport ok k f s = .fault .deviceStall := by
  simp [runTransport, h, hc]

/-- What sending a command payload can answer as a next state. -/
theorem sendCommand_next {p : List Byte} {s t : State} (h : sendCommand p s = .next t) :
    t = txWrite (encodeFrame p) s ∨ t = refuse s := by
  rcases runTransport_next h with ⟨-, -, h⟩ | ⟨-, h⟩
  · exact .inl h
  · exact .inr h

/-- What ENCODE of a payload can answer as a next state. -/
theorem formFrame_next {p : List Byte} {s t : State} (h : formFrame p s = .next t) :
    t = complete (.bytes (encodeFrame p)) s ∨ t = refuse s := by
  rcases runPure_next h with ⟨-, h⟩ | ⟨-, h⟩
  · exact .inl h
  · exact .inr h

/-- What a request that is no row of the table can answer as a next state: it sends nothing. -/
theorem runUnlisted_next {q : Request} {s t : State} (h : runUnlisted q s = .next t) :
    t = refuse s ∨ (∃ p, q = .command p ∧ t = complete (.bytes (encodeFrame p)) s) ∨
      ∃ r, q = .reply r ∧ t = stage r s := by
  cases q with
  | host c => exact .inl (by simpa [runUnlisted] using h.symm)
  | command p =>
    rcases formFrame_next h with h | h
    · exact .inr (.inl ⟨p, rfl, h⟩)
    · exact .inl h
  | reply r => exact .inr (.inr ⟨r, rfl, by simpa [runUnlisted] using h.symm⟩)

theorem runTransport_refuses {ok : Bool} {k : Nat} {f : State → State} {s : State} (h : ok = false) :
    runTransport ok k f s = .next (refuse s) := by simp [runTransport, h]

end Sys2Proof.Machine
end

