-- ==== Sys2Proof/Laws/PerInstr.lean ====
section
/-! SUPPORT. Per instruction: the length of its encoding, from the "command length" column of R87 and the layouts
of R73, R74, R78 to R83. -/

namespace Sys2Proof.Laws.EncodedLength

/-- The length the spec gives an instruction's words. -/
def length : Instr → Nat
  | .encode p => 2 + p.length
  | .decode r => 3 + r.length
  | .lcs _ => 2
  | .dcs p => 2 + p.length
  | .expect e => 2 + e.length
  | .wake => 1
  | .findTarget => 1
  | .sessionNew => 1
  | .auth _ => 2
  | .wireSamConfiguration _ => 3
  | .wireInListPassiveTarget _ _ => 4
  | .wireInDataExchangeAuthA _ _ _ _ => 15
  | .wireInDataExchangeRead16 _ _ => 5
  | .wireAck => 7
  | .wireWakeConf => 9
  | .wireInListPassiveTargetResp _ _ _ _ _ _ _ => 20
  | .wireInDataExchangeResp _ => 11

/-- The encoding has the length the spec gives it. -/
def Statement (i : Instr) : Prop := (Sys2Proof.encode i).bytes.length = length i

theorem encode (p : List Byte) : Statement (.encode p) := by
  simp [Statement, Sys2Proof.encode, Request.bytes, length]; omega

theorem decode (r : List Byte) : Statement (.decode r) := by
  simp [Statement, Sys2Proof.encode, Request.bytes, length]; omega

theorem lcs (l : Byte) : Statement (.lcs l) := rfl

theorem dcs (p : List Byte) : Statement (.dcs p) := by
  simp [Statement, Sys2Proof.encode, Request.bytes, length]; omega

theorem expect (e : List Byte) : Statement (.expect e) := by
  simp [Statement, Sys2Proof.encode, Request.bytes, length]; omega

theorem wake : Statement .wake := rfl

theorem findTarget : Statement .findTarget := rfl

theorem sessionNew : Statement .sessionNew := rfl

theorem auth (a : Byte) : Statement (.auth a) := rfl

theorem wireSamConfiguration (mode : Byte) : Statement (.wireSamConfiguration mode) := rfl

theorem wireInListPassiveTarget (maxTg brTy : Byte) : Statement (.wireInListPassiveTarget maxTg brTy) := rfl

theorem wireInDataExchangeAuthA (tg a : Byte) (key : Key) (uid : Uid) :
    Statement (.wireInDataExchangeAuthA tg a key uid) := rfl

theorem wireInDataExchangeRead16 (tg a : Byte) : Statement (.wireInDataExchangeRead16 tg a) := rfl

theorem wireAck : Statement .wireAck := rfl

theorem wireWakeConf : Statement .wireWakeConf := rfl

theorem wireInListPassiveTargetResp (nbTg tg sens0 sens1 sel idLen : Byte) (uid : Uid) :
    Statement (.wireInListPassiveTargetResp nbTg tg sens0 sens1 sel idLen uid) := rfl

theorem wireInDataExchangeResp (st : Byte) : Statement (.wireInDataExchangeResp st) := rfl

end Sys2Proof.Laws.EncodedLength
end

