-- ==== Sys2Proof/Tests/Slice0.lean ====
section
/-! SUPPORT. The model's own tests: the WellFormed smoke, decoding of words written out from 30_encoding.md, one-step
vectors of 95_test_vectors.md, and one witness per obligation that has hypotheses. -/

namespace Sys2Proof.Tests

open Sys2Proof.Machine

/-! ### Helpers -/

/-- The state an outcome leaves, if it leaves one. -/
def after : Host.Outcome State Fault Refusal → Option State
  | .next s => some s
  | .fault _ => none
  | .refused _ => none

/-- After reset, with the given answers of the device, one per read. -/
def answering (answers : List (List Byte)) : State :=
  State.resetWith Config.decided [] { Device.fresh with staged := answers }

/-- After reset, with the given transport limits and at most `k` calls completing. -/
def limited (maxWrite maxRead k : Nat) : State :=
  State.resetWith (Config.decidedWith 0x24 maxWrite maxRead 0) [] { Device.fresh with callsLeft := some k }

/-- A state with a session. -/
def inSession (tg : Byte) (u : Uid) (s : State) : State := { s with present := true, tgid := tg, uid := u }

/-- After reset, with one waiting request. -/
def waiting (q : Request) : State := { State.reset with port := [q] }

/-- The discovery answer of V-FIND-1. -/
def foundImage : List Byte :=
  [0x01, 0x00, 0x00, 0xFF, 0x0C, 0xF4, 0xD5, 0x4B, 0x01, 0x01, 0x00, 0x04, 0x08, 0x04, 0xDE, 0xAD, 0xBE, 0xEF, 0x96,
    0x00]

/-- The discovery answer of V-FIND-2. -/
def noTargetImage : List Byte :=
  [0x01, 0x00, 0x00, 0xFF, 0x03, 0xFD, 0xD5, 0x4B, 0x00, 0xE0, 0x00] ++ List.replicate 9 0x00

/-- The UID of V-FIND-1. -/
def deadBeef : Uid := ⟨0xDE, 0xAD, 0xBE, 0xEF⟩

/-- The key of D18. -/
def keyFF : Key := ⟨0xFF, 0xFF, 0xFF, 0xFF, 0xFF, 0xFF⟩

/-! ### WellFormed: each check refuses an ill-formed term (R88, R7, R146, R173) -/

theorem test_encode_over_255_is_ill_formed : (Instr.encode (List.replicate 256 0x00)).wf = false := by
  simp [Instr.wf, -List.reduceReplicate]

theorem test_decode_over_65535_is_ill_formed : (Instr.decode (List.replicate 65536 0x00)).wf = false := by
  simp [Instr.wf, -List.reduceReplicate]

theorem test_dcs_over_255_is_ill_formed : (Instr.dcs (List.replicate 256 0x00)).wf = false := by
  simp [Instr.wf, -List.reduceReplicate]

theorem test_expect_over_255_is_ill_formed : (Instr.expect (List.replicate 256 0x00)).wf = false := by
  simp [Instr.wf, -List.reduceReplicate]

theorem test_255_bytes_are_well_formed :
    (Instr.encode (List.replicate 255 0x00)).wf = true ∧ (Instr.dcs (List.replicate 255 0x00)).wf = true ∧
      (Instr.expect (List.replicate 255 0x00)).wf = true := by simp [Instr.wf, -List.reduceReplicate]

theorem test_short_reads_make_an_ill_formed_config :
    (Config.decidedWith 0x24 262 19 0).wf = false ∧
      Config.wf { Config.decided with ilptReadLen := 17 } = false ∧
      Config.wf { Config.decided with authReadLen := 8 } = false ∧ Config.decided.wf = true := by decide

/-! ### Decoding: words written out from R87, R90, R91, R73, R74, R78 to R83 -/

theorem test_decode_host_words :
    decode (.host [0x01, 0x05, 0xD4, 0x40, 0x01, 0x30, 0x04]) = some (.encode [0xD4, 0x40, 0x01, 0x30, 0x04]) ∧
    decode (.host [0x02, 0x00, 0x02, 0xAA, 0xBB]) = some (.decode [0xAA, 0xBB]) ∧
    decode (.host [0x03, 0x05]) = some (.lcs 0x05) ∧
    decode (.host [0x04, 0x02, 0xD5, 0x15]) = some (.dcs [0xD5, 0x15]) ∧
    decode (.host [0x05, 0x07, 0x01, 0x00, 0x00, 0xFF, 0x00, 0xFF, 0x00]) =
      some (.expect [0x01, 0x00, 0x00, 0xFF, 0x00, 0xFF, 0x00]) ∧
    decode (.host [0x10]) = some .wake ∧ decode (.host [0x11]) = some .findTarget ∧
    decode (.host [0x12]) = some .sessionNew ∧ decode (.host [0x20, 0x04]) = some (.auth 0x04) := by decide

/-- The count of DECODE is big-endian (R88). -/
theorem test_decode_count_is_big_endian :
    decode (.host (0x02 :: 0x01 :: 0x02 :: List.replicate 258 0x00)) = some (.decode (List.replicate 258 0x00)) ∧
      decode (.host (0x02 :: 0x02 :: 0x01 :: List.replicate 258 0x00)) = none := by
  decide +kernel

theorem test_decode_wire_commands :
    decode (.command [0xD4, 0x14, 0x01]) = some (.wireSamConfiguration 0x01) ∧
    decode (.command [0xD4, 0x4A, 0x01, 0x00]) = some (.wireInListPassiveTarget 0x01 0x00) ∧
    decode (.command [0xD4, 0x40, 0x01, 0x60, 0x04, 0xFF, 0xFF, 0xFF, 0xFF, 0xFF, 0xFF, 0xDE, 0xAD, 0xBE, 0xEF]) =
      some (.wireInDataExchangeAuthA 0x01 0x04 keyFF deadBeef) ∧
    decode (.command [0xD4, 0x40, 0x01, 0x30, 0x04]) = some (.wireInDataExchangeRead16 0x01 0x04) := by decide

theorem test_decode_wire_replies :
    decode (.reply [0x01, 0x00, 0x00, 0xFF, 0x00, 0xFF, 0x00]) = some .wireAck ∧
    decode (.reply [0x01, 0x00, 0x00, 0xFF, 0x02, 0xFE, 0xD5, 0x15, 0x16]) = some .wireWakeConf ∧
    decode (.reply [0x01, 0x00, 0x00, 0xFF, 0x0C, 0xF4, 0xD5, 0x4B, 0x01, 0x01, 0x00, 0x04, 0x08, 0x04, 0xDE, 0xAD,
        0xBE, 0xEF, 0x96, 0x00]) =
      some (.wireInListPassiveTargetResp 0x01 0x01 0x00 0x04 0x08 0x04 deadBeef) ∧
    decode (.reply [0x01, 0x00, 0x00, 0xFF, 0x03, 0xFD, 0xD5, 0x41, 0x14, 0xD6, 0x00]) =
      some (.wireInDataExchangeResp 0x14) := by decide

/-- Reserved opcodes and wrong lengths are no instruction (R89, R86; V-REF-1, V-REF-2, V-REF-4). -/
theorem test_decode_refuses :
    decode (.host [0x00]) = none ∧ decode (.host [0x01, 0x05, 0xD4, 0x40]) = none ∧ decode (.host [0x13]) = none ∧
    decode (.host []) = none ∧ decode (.host [0x10, 0x00]) = none ∧ decode (.host [0x20]) = none ∧
    decode (.host [0x06]) = none ∧ decode (.host [0xFF]) = none := by decide

theorem test_table_words_decode :
    decodeTableWord 8 0x01 = some (.encode []) ∧ decodeTableWord 8 0x02 = some (.decode []) ∧
    decodeTableWord 8 0x03 = some (.lcs 0x00) ∧ decodeTableWord 8 0x04 = some (.dcs []) ∧
    decodeTableWord 8 0x05 = some (.expect []) ∧ decodeTableWord 8 0x10 = some .wake ∧
    decodeTableWord 8 0x11 = some .findTarget ∧ decodeTableWord 8 0x12 = some .sessionNew ∧
    decodeTableWord 8 0x20 = some (.auth 0x00) ∧
    decodeTableWord 16 0xD414 = some (.wireSamConfiguration 0x00) ∧
    decodeTableWord 16 0xD44A = some (.wireInListPassiveTarget 0x00 0x00) := by decide

theorem test_long_table_words_decode :
    decodeTableWord 32 0xD4400160 =
      some (.wireInDataExchangeAuthA 0x01 0x00 ⟨0x00, 0x00, 0x00, 0x00, 0x00, 0x00⟩ zeroUid) ∧
    decodeTableWord 32 0xD4400130 = some (.wireInDataExchangeRead16 0x01 0x00) ∧
    decodeTableWord 56 0x010000FF00FF00 = some .wireAck ∧
    decodeTableWord 72 0x010000FF02FED51516 = some .wireWakeConf ∧
    decodeTableWord 16 0xD54B =
      some (.wireInListPassiveTargetResp 0x00 0x00 0x00 0x00 0x00 0x00 zeroUid) ∧
    decodeTableWord 16 0xD541 = some (.wireInDataExchangeResp 0x00) := by decide

/-- A length other than the implied one is refused, in a table word too (R86). -/
theorem test_overlong_table_words_refused :
    decodeTableWord 16 0x0010 = none ∧ decodeTableWord 24 0x000020 = none ∧ decodeTableWord 32 0xD4140100 = none ∧
    step (State.reset.withFetchWord 16 0x0010) = .next (refuse State.reset) :=
  ⟨by decide, by decide, by decide, rfl⟩

theorem test_fetch_word_runs_first :
    (after (step (State.reset.withFetchWord 16 0x0503))).map (·.result) = some (.byte 0xFB) := by decide

/-! ### One step: the codec -/

/-- V-ENC-5 -/
theorem test_encode_read_block :
    (after (exec (.encode [0xD4, 0x40, 0x01, 0x30, 0x04]) State.reset)).map (fun s => (s.result, s.hpc)) =
      some (.bytes [0x00, 0x00, 0xFF, 0x05, 0xFB, 0xD4, 0x40, 0x01, 0x30, 0x04, 0xB7, 0x00], 1) := by decide

/-- V-ENC-4: the sum 0x100 gives DCS 00. -/
theorem test_encode_wrapped_sum :
    (after (exec (.encode [0x80, 0x80]) State.reset)).map (·.result) =
      some (.bytes [0x00, 0x00, 0xFF, 0x02, 0xFE, 0x80, 0x80, 0x00, 0x00]) := by decide

/-- V-SRC-1b: only the data checksum fails. -/
theorem test_decode_bad_dcs :
    (after (exec (.decode [0x01, 0x00, 0x00, 0xFF, 0x05, 0xFB, 0xD4, 0x40, 0x01, 0x30, 0x04, 0xC7, 0x00])
        State.reset)).map (fun s => (s.status, s.diag)) =
      some (0x0C, [.malformedFrame (.dcs (some 0xC7))]) := by decide

/-- V-DEC-5: a clipped image. -/
theorem test_decode_clipped :
    (after (exec (.decode [0x01, 0x00, 0x00, 0xFF, 0x05, 0xFB, 0xD4]) State.reset)).map
        (fun s => (s.result, s.diag)) =
      some (.frame {
          len := 0x05
          slice := [0x01, 0x00, 0x00, 0xFF, 0x05, 0xFB, 0xD4]
          payload := [0xD4]
          lcs := some 0xFB
          dcs := none
          post := none
          leadOk := true
          lcsOk := true
          dcsOk := false
          short := true },
        [.malformedFrame (.dcs none), .malformedFrame (.short 7)]) := by decide

/-- V-LCS-4: the non-zero fixed point. -/
theorem test_lcs_fixed_point : (after (exec (.lcs 0x80) State.reset)).map (·.result) = some (.byte 0x80) := by decide

/-- V-LCS-1 -/
theorem test_lcs_zero : (after (exec (.lcs 0x00) State.reset)).map (·.result) = some (.byte 0x00) := by decide

/-- V-DCS-5 -/
theorem test_dcs_read_block :
    (after (exec (.dcs [0xD4, 0x40, 0x01, 0x30, 0x04]) State.reset)).map (·.result) = some (.byte 0xB7) := by decide

/-- V-DCS-10: the payload 00 01 ... FE. -/
theorem test_dcs_ramp :
    (after (exec (.dcs ((List.range 255).map (BitVec.ofNat 8))) State.reset)).map (·.result) = some (.byte 0x7F) := by
  decide +kernel

/-! ### One step: comparator, session, authenticator -/

/-- V-EXP-2: the last byte alone differs. -/
theorem test_expect_last_byte :
    (after (exec (.expect ackImage) (answering [[0x01, 0x00, 0x00, 0xFF, 0x00, 0xFF, 0x01]]))).map
        (fun s => (s.result, s.diag)) =
      some (.bool false, [.transportMismatch 6 [0x01, 0x00, 0x00, 0xFF, 0x00, 0xFF, 0x01]]) := by decide

/-- V-EXP-4: nothing is read. -/
theorem test_expect_empty :
    (after (exec (.expect []) State.reset)).map (fun s => (s.result, s.trace, s.status)) =
      some (.bool true, [], 0x01) := by decide

/-- V-WAKE-1 -/
theorem test_wake_trace :
    (after (exec .wake (answering [ackImage, wakeConfImage]))).map (fun s => (s.trace, s.running, s.sstate)) =
      some ([.write [], .settle, .write [0x00, 0x00, 0xFF, 0x03, 0xFD, 0xD4, 0x14, 0x01, 0x17, 0x00], .settle,
        .read 7 [0x01, 0x00, 0x00, 0xFF, 0x00, 0xFF, 0x00],
        .read 9 [0x01, 0x00, 0x00, 0xFF, 0x02, 0xFE, 0xD5, 0x15, 0x16]], true, 2) := by decide

/-- V-WAKE-4: a failed wake from a running block leaves RUNNING as it was (D10). -/
theorem test_wake_failure_keeps_running :
    (after (exec .wake { answering [List.replicate 7 0x00, List.replicate 9 0x00] with
        running := true, sstate := SState.idle, status := 0x03 })).map (fun s => (s.running, s.sstate, s.status)) =
      some (true, 0, 0x00) := by decide

/-- V-FIND-1 -/
theorem test_find_target :
    (after (exec .findTarget (answering [ackImage, foundImage]))).map
        (fun s => (s.present, s.tgid, s.uid, s.sstate, s.status)) =
      some (true, 0x01, deadBeef, 4, 0x81) := by decide

/-- V-FIND-5: the reset of the session comes first. -/
theorem test_find_no_target_clears_uid :
    (after (exec .findTarget (inSession 0x01 deadBeef (answering [ackImage, noTargetImage])))).map
        (fun s => (s.present, s.tgid, s.uid, s.sstate, s.result)) =
      some (false, 0x00, zeroUid, 5, .bool false) := by decide

/-- V-SN-1 -/
theorem test_session_new :
    (after (exec .sessionNew { inSession 0x01 deadBeef State.reset with sstate := SState.targetFound })).map
        (fun s => (s.present, s.tgid, s.uid, s.sstate, s.result)) =
      some (false, 0x00, zeroUid, 4, .none) := by decide

/-- V-AUTH-5: target number, key and UID at their places. -/
theorem test_auth_frame :
    (after (exec (.auth 0x05) (inSession 0x01 ⟨0x04, 0xA1, 0xB2, 0xC3⟩ (answering [ackImage,
        [0x01, 0x00, 0x00, 0xFF, 0x03, 0xFD, 0xD5, 0x41, 0x00, 0xEA, 0x00]])))).map
        (fun s => s.trace.head?) =
      some (some (.write [0x00, 0x00, 0xFF, 0x0F, 0xF1, 0xD4, 0x40, 0x01, 0x60, 0x05, 0xFF, 0xFF, 0xFF, 0xFF, 0xFF,
        0xFF, 0x04, 0xA1, 0xB2, 0xC3, 0x72, 0x00])) := by decide

/-- V-AUTH-3: the card's refusal, with the empty session. -/
theorem test_auth_failure :
    (after (exec (.auth 0x07) (answering [ackImage,
        [0x01, 0x00, 0x00, 0xFF, 0x03, 0xFD, 0xD5, 0x41, 0x14, 0xD6, 0x00]]))).map
        (fun s => (s.result, s.authStatus, s.status, s.diag)) =
      some (.bool false, 0x14, 0x01, [.authFailure 0x07 0x14]) := by decide

/-! ### One step: the wire rows -/

/-- The frame of R78. -/
theorem test_wire_sam_configuration :
    (after (exec (.wireSamConfiguration 0x01) State.reset)).map (·.trace) =
      some [.write [0x00, 0x00, 0xFF, 0x03, 0xFD, 0xD4, 0x14, 0x01, 0x17, 0x00], .settle] := by decide

/-- The frame of R79. -/
theorem test_wire_in_list_passive_target :
    (after (exec (.wireInListPassiveTarget 0x01 0x00) State.reset)).map (·.trace) =
      some [.write [0x00, 0x00, 0xFF, 0x04, 0xFC, 0xD4, 0x4A, 0x01, 0x00, 0xE1, 0x00], .settle] := by decide

/-- The frame of V-ENC-9, formed and not sent (R51). -/
theorem test_wire_auth_a :
    (after (exec (.wireInDataExchangeAuthA 0x01 0x04 keyFF deadBeef) State.reset)).map (fun s => (s.result, s.trace)) =
      some (.bytes [0x00, 0x00, 0xFF, 0x0F, 0xF1, 0xD4, 0x40, 0x01, 0x60, 0x04, 0xFF, 0xFF, 0xFF, 0xFF, 0xFF, 0xFF,
        0xDE, 0xAD, 0xBE, 0xEF, 0x55, 0x00], []) := by decide

/-- The frame of V-SRC-1 as corrected. -/
theorem test_wire_read16 :
    (after (exec (.wireInDataExchangeRead16 0x01 0x04) State.reset)).map (fun s => (s.result, s.trace)) =
      some (.bytes [0x00, 0x00, 0xFF, 0x05, 0xFB, 0xD4, 0x40, 0x01, 0x30, 0x04, 0xB7, 0x00], []) := by decide

/-- V-ENC-7: D8's other payload is no row of the table, and ENCODE accepts it (R85). -/
theorem test_unlisted_command_is_formed :
    (after (step (waiting (.command [0xD4, 0x14, 0x01, 0x14, 0x01])))).map (fun s => (s.result, s.trace, s.refused)) =
      some (.bytes [0x00, 0x00, 0xFF, 0x05, 0xFB, 0xD4, 0x14, 0x01, 0x14, 0x01, 0x02, 0x00], [], false) := by decide

/-- The images of R73, R74, V-FIND-1 and V-AUTH-2. -/
theorem test_wire_replies_are_staged :
    (after (exec .wireAck State.reset)).map (·.device.staged) =
      some [[0x01, 0x00, 0x00, 0xFF, 0x00, 0xFF, 0x00]] ∧
    (after (exec .wireWakeConf State.reset)).map (·.device.staged) =
      some [[0x01, 0x00, 0x00, 0xFF, 0x02, 0xFE, 0xD5, 0x15, 0x16]] ∧
    (after (exec (.wireInListPassiveTargetResp 0x01 0x01 0x00 0x04 0x08 0x04 deadBeef) State.reset)).map
        (·.device.staged) = some [foundImage] ∧
    (after (exec (.wireInDataExchangeResp 0x14) State.reset)).map (·.device.staged) =
      some [[0x01, 0x00, 0x00, 0xFF, 0x03, 0xFD, 0xD5, 0x41, 0x14, 0xD6, 0x00]] := by decide

/-! ### Witnesses: each theorem meets the hypotheses of the obligation it is named after -/

theorem witness_DecodeRecoversEncodedInstr :
    (Instr.encode (List.replicate 255 0xFF)).wf = true ∧ (Instr.decode (List.replicate 65535 0xFF)).wf = true ∧
      (Instr.auth 0xFF).wf = true ∧ (Instr.wireAck).wf = true := by simp [Instr.wf, -List.reduceReplicate]

theorem witness_EncodeRecoversDecodedRequest :
    decode (.host [0x12]) = some .sessionNew ∧ decode (.host [0x05, 0x00]) = some (.expect []) ∧
      decode (.command [0xD4, 0x14, 0xFF]) = some (.wireSamConfiguration 0xFF) ∧
      decode (.reply ackImage) = some .wireAck := by decide

theorem witness_StepRunsDecodedRequest :
    (waiting (.host [0x12])).port = .host [0x12] :: [] ∧ decode (.host [0x12]) = some .sessionNew := by decide

theorem witness_StepWaitsForRequest : State.reset.port = [] := rfl

theorem witness_StepTakesUnlistedWireRequests :
    (decode (.reply [0xAA]) = none ∧ (waiting (.reply [0xAA])).port = .reply [0xAA] :: []) ∧
      (decode (.command []) = none ∧ (waiting (.command [])).port = .command [] :: [] ∧
        ([] : List Byte).length ≤ 255) := by decide

theorem witness_StepKeepsInvariant :
    GoodState (waiting (.host [0x12])) ∧ ∃ t, step (waiting (.host [0x12])) = .next t :=
  ⟨by decide, _, rfl⟩

theorem witness_OperationKeepsSessionConsistent :
    Config.decided.tgidFound = 0x01 ∧ SessionConsistent (inSession 0x01 deadBeef State.reset) ∧
      SessionConsistent State.reset ∧ ∃ t, exec .sessionNew (inSession 0x01 deadBeef State.reset) = .next t :=
  ⟨rfl, by decide, by decide, _, rfl⟩

theorem witness_SStateTransitions :
    (∃ t, exec .wake (answering [ackImage, wakeConfImage]) = .next t ∧ t.result = .bool true) ∧
    (∃ t, exec .wake (answering [ackImage, ackImage ++ [0x00, 0x00]]) = .next t ∧ t.result = .bool false) ∧
    (∃ t, exec .findTarget (answering [ackImage, foundImage]) = .next t ∧ t.result = .bool true) ∧
    (∃ t, exec .findTarget (answering [ackImage, noTargetImage]) = .next t ∧ t.result = .bool false) ∧
    (∃ t, exec .wake (limited 8 20 4) = .next t) ∧ (∃ t, exec .findTarget (limited 10 20 4) = .next t) ∧
    ∃ t, exec .sessionNew State.reset = .next t :=
  ⟨⟨_, rfl, by decide⟩, ⟨_, rfl, by decide⟩, ⟨_, rfl, by decide⟩, ⟨_, rfl, by decide⟩, ⟨_, rfl⟩, ⟨_, rfl⟩, ⟨_, rfl⟩⟩

theorem witness_RunningSetOnlyByMatchedWake :
    ∃ t, exec .wake (answering [ackImage, wakeConfImage]) = .next t ∧
      (answering [ackImage, wakeConfImage]).running = false ∧ t.running = true :=
  ⟨_, rfl, rfl, by decide⟩

/-- Every host operation answers a next state somewhere, so no clause of WriteOwnership, HostOperationAdvancesHpc,
RaiseSites, NoStateGating, AuthReportIsNotRead or OutputsAreNeverRead is empty. -/
theorem witness_WriteOwnership :
    (∃ t, exec (.encode []) State.reset = .next t) ∧ (∃ t, exec (.decode []) State.reset = .next t) ∧
    (∃ t, exec (.lcs 0x00) State.reset = .next t) ∧ (∃ t, exec (.dcs []) State.reset = .next t) ∧
    (∃ t, exec (.expect ackImage) State.reset = .next t) ∧ (∃ t, exec .wake State.reset = .next t) ∧
    (∃ t, exec .findTarget State.reset = .next t) ∧ (∃ t, exec .sessionNew State.reset = .next t) ∧
    (∃ t, exec (.auth 0x04) State.reset = .next t) ∧
    (∃ t, exec (.wireInDataExchangeRead16 0x01 0x04) State.reset = .next t) ∧
    ∃ t, exec (.wireInDataExchangeAuthA 0x01 0x04 keyFF deadBeef) State.reset = .next t :=
  ⟨⟨_, rfl⟩, ⟨_, rfl⟩, ⟨_, rfl⟩, ⟨_, rfl⟩, ⟨_, rfl⟩, ⟨_, rfl⟩, ⟨_, rfl⟩, ⟨_, rfl⟩, ⟨_, rfl⟩, ⟨_, rfl⟩, ⟨_, rfl⟩⟩

theorem witness_SentAndStagedRowsKeepSession :
    isHostOperation (.wireSamConfiguration 0x01) = false ∧ isHostOperation .wireAck = false ∧
    (∃ t, exec (.wireSamConfiguration 0x01) State.reset = .next t) ∧ (∃ t, exec .wireAck State.reset = .next t) ∧
    ∃ r, encode .wireAck = .reply r :=
  ⟨rfl, rfl, ⟨_, rfl⟩, ⟨_, rfl⟩, _, rfl⟩

theorem witness_LogsGrowAndRefusedSticks :
    ∃ t, step { waiting (.host [0x00]) with refused := true } = .next t := ⟨_, rfl⟩

theorem witness_HostOperationAdvancesHpc :
    isHostOperation .wake = true ∧ (∃ t, exec .wake State.reset = .next t) ∧
      ∃ t, exec .wake (limited 8 20 4) = .next t := ⟨rfl, ⟨_, rfl⟩, _, rfl⟩

theorem witness_StepKeepsConfiguration : ∃ t, step (waiting (.host [0x10])) = .next t := ⟨_, rfl⟩

theorem witness_NoStateGating :
    State.blankGate { State.reset with running := true, sstate := SState.targetFound } = State.reset.blankGate ∧
      { State.reset with running := true, sstate := SState.targetFound } ≠ State.reset := by decide

theorem witness_AuthReportIsNotRead :
    State.blankAuthReport { State.reset with authStatus := 0x14, status := 0x40, result := .bool true } =
        State.reset.blankAuthReport ∧
      { State.reset with authStatus := 0x14, status := 0x40, result := .bool true } ≠ State.reset := by decide

theorem witness_OutputsAreNeverRead :
    State.blankOutputs { State.reset with running := true, status := 0xFF, hpc := 7, refused := true } =
        State.reset.blankOutputs ∧
      { State.reset with running := true, status := 0xFF, hpc := 7, refused := true } ≠ State.reset := by decide

theorem witness_ChecksumLaws :
    (List.replicate 255 (0xFF : Byte)).length ≤ 255 ∧ [(0x80 : Byte), 0x7F].Perm [0x7F, 0x80] :=
  ⟨by simp [-List.reduceReplicate], by decide⟩

theorem witness_EncodeBuildsFrame :
    (List.replicate 255 (0x00 : Byte)).length = (0xFF : Byte).toNat ∧ ([] : List Byte).length = (0x00 : Byte).toNat ∧
      255 < (List.replicate 256 (0x00 : Byte)).length ∧
      (List.replicate 255 (0x00 : Byte)).length = 255 ∧
      (([0x80, 0x80] : List Byte).map BitVec.toNat).sum % 256 = 0 := by simp [-List.reduceReplicate]

theorem witness_DcsResult :
    (List.replicate 255 (0x00 : Byte)).length = (0xFF : Byte).toNat ∧
      (List.replicate 255 (0x00 : Byte)).length ≤ 255 := by simp [-List.reduceReplicate]

theorem witness_DecodeParsesImage :
    (List.replicate 65535 (0x00 : Byte)).length = (0xFF : Byte).toNat * 256 + (0xFF : Byte).toNat ∧
      (List.replicate 65535 (0x00 : Byte)).length ≤ 65535 ∧ ([] : List Byte).length ≤ 65535 := by simp [-List.reduceReplicate]

theorem witness_WellFormedIffChecksumsMatch :
    (List.replicate 65535 (0x00 : Byte)).length ≤ 65535 ∧ State.reset.cfg.IsDecided := ⟨by simp [-List.reduceReplicate], rfl⟩

theorem witness_DecodeOfEncodedFrame :
    (List.replicate 255 (0x00 : Byte)).length ≤ 255 ∧ State.reset.cfg.lenOff = 4 ∧ State.reset.cfg.sliceStart = 0 :=
  ⟨by simp [-List.reduceReplicate], rfl, rfl⟩

/-- Clause by clause: a 4-byte buffer, 7 and 65535 zero bytes, a clipped image (V-DEC-5), a padded one (V-DEC-9). -/
theorem witness_DecodeCornerCases :
    State.reset.cfg.IsDecided ∧ ([0x01, 0x00, 0x00, 0xFF] : List Byte).length ≤ 4 ∧ (7 ≤ 7 ∧ 65535 ≤ 65535) ∧
    (∃ f, DecodesTo State.reset [0x01, 0x00, 0x00, 0xFF, 0x05, 0xFB, 0xD4] f
      [.malformedFrame (.dcs none), .malformedFrame (.short 7)] ∧ 7 < f.len.toNat + 8 ∧ 7 ≤ f.len.toNat + 6) ∧
    ((([0x01, 0x00, 0x00, 0xFF, 0x03, 0xFD, 0xD5, 0x4B, 0x00, 0xE0, 0x00] : List Byte).getD 4 0x00).toNat + 8 ≤ 11 ∧
      noTargetImage.length ≤ 65535) :=
  ⟨rfl, by decide, by decide, ⟨_, ⟨_, rfl, rfl, rfl, rfl⟩, by decide, by decide⟩, by decide, by decide⟩

theorem witness_PureOperationsNeedNoTransport :
    (Instr.encode (List.replicate 255 0x00)).wf = true ∧ (Instr.decode []).wf = true ∧ (Instr.lcs 0xFF).wf = true ∧
      (Instr.dcs []).wf = true ∧ (limited 0 0 0).cfg = (limited 0 0 1).cfg := by
  refine ⟨by simp [Instr.wf, -List.reduceReplicate], rfl, rfl, rfl, rfl⟩

theorem witness_ExpectComparesExactly :
    (List.replicate 255 (0x00 : Byte)).length = (0xFF : Byte).toNat ∧ List.replicate 255 (0x00 : Byte) ≠ [] ∧
      (List.replicate 255 (0x00 : Byte)).length ≤ (limited 0 255 1).cfg.maxRead ∧
      (limited 0 255 1).device.completes 1 = true := by
  simp [-List.reduceReplicate, limited, State.resetWith, Config.decidedWith, Device.completes]

theorem witness_ReadReturnsAnyBytesOfTheLength :
    (answering [ackImage, wakeConfImage]).device.staged = ackImage :: [wakeConfImage] := rfl

theorem witness_WakeRunsItsSequence :
    let s := limited 10 9 4
    s.cfg.primeBytes.length ≤ s.cfg.maxWrite ∧ s.cfg.samPayload.length ≤ 255 ∧
      s.cfg.samPayload.length + 7 ≤ s.cfg.maxWrite ∧ 9 ≤ s.cfg.maxRead ∧ s.device.completes 4 = true ∧
      s.cfg.IsDecided := by decide

theorem witness_FindTargetRecordsSession :
    let s := limited 11 20 3
    let long := { s with cfg := { s.cfg with uidOff := 17 } }
    s.cfg.ilptPayload.length ≤ 255 ∧ s.cfg.ilptPayload.length + 7 ≤ s.cfg.maxWrite ∧ 7 ≤ s.cfg.maxRead ∧
      s.cfg.ilptReadLen ≤ s.cfg.maxRead ∧ s.device.completes 3 = true ∧ s.cfg.IsDecided ∧
      s.cfg.uidOff + 4 ≤ s.cfg.ilptReadLen ∧ long.cfg.ilptReadLen < long.cfg.uidOff + 4 ∧
      3 < 4 ∧ ((long.device.afterCalls 0 1).answer 20)[long.cfg.uidOff + 2]?.isSome = true := by decide

theorem witness_DiscoveryIsIdempotent :
    let s := answering [ackImage, noTargetImage, ackImage, List.replicate 20 0x00]
    let s' := { s with running := true, diag := [.authFailure 0x00 0x01] }
    s.cfg = s'.cfg ∧ s.device = s'.device ∧
    ∃ t t' u, exec .findTarget s = .next t ∧ exec .findTarget s' = .next t' ∧ exec .findTarget t = .next u ∧
      t ≠ refuse s ∧ t' ≠ refuse s' ∧ u ≠ refuse t ∧ t.result = .bool false ∧ u.result = .bool false := by
  refine ⟨rfl, rfl, _, _, _, rfl, rfl, rfl, ?_, ?_, ?_, ?_, ?_⟩ <;> decide

theorem witness_AuthSendsAndReports :
    let s := limited 22 11 3
    22 ≤ s.cfg.maxWrite ∧ 7 ≤ s.cfg.maxRead ∧ s.cfg.authReadLen ≤ s.cfg.maxRead ∧
      s.cfg.authStatusOff < s.cfg.authReadLen ∧ s.device.completes 3 = true ∧ s.cfg.IsDecided := by decide

/-- Under the configurations R146 and R173 rule out, both operations still complete (log 12). -/
theorem witness_absent_bytes_end_no_run :
    (∃ t, exec .findTarget { answering [ackImage, foundImage] with cfg := { Config.decided with uidOff := 18 } } =
      .next t ∧ t.present = true) ∧
    ∃ t, exec (.auth 0x04) { State.reset with cfg := { Config.decided with authStatusOff := 11 } } = .next t :=
  ⟨⟨_, rfl, by decide⟩, _, rfl⟩

/-- The answers of V-AUTH-4. -/
theorem witness_AuthZeroPaddingReadsAsSuccess :
    let s := answering [List.replicate 7 0x00, List.replicate 11 0x00]
    s.cfg.IsDecided ∧ 22 ≤ s.cfg.maxWrite ∧ 11 ≤ s.cfg.maxRead ∧ s.device.completes 3 = true ∧
      ∃ x rest, s.device.staged = x :: List.replicate 11 0x00 :: rest :=
  ⟨by decide, by decide, by decide, by decide, List.replicate 7 0x00, [], rfl⟩

theorem witness_AuthCarriesDiscoveredUid :
    State.reset.cfg.IsDecided ∧ 22 ≤ State.reset.cfg.maxWrite ∧ 20 ≤ State.reset.cfg.maxRead ∧
      State.reset.device.staged = [] ∧ State.reset.device.callsLeft = none := by decide

theorem witness_WakeSucceedsOnStagedConstants :
    State.reset.cfg.IsDecided ∧ 10 ≤ State.reset.cfg.maxWrite ∧ 9 ≤ State.reset.cfg.maxRead ∧
      State.reset.device.staged = [] ∧ State.reset.device.callsLeft = none := by decide

theorem witness_RaiseSites :
    (∃ t, exec (.decode []) State.reset = .next t ∧ t.diag.length = 4) ∧
    (∃ t, exec .wake (answering [List.replicate 7 0x00, List.replicate 9 0x00]) = .next t ∧ t.diag.length = 2) ∧
    ∃ t, exec (.auth 0x04) (answering [ackImage, List.replicate 11 0x14]) = .next t ∧
      t.diag = [.authFailure 0x04 0x14] :=
  ⟨⟨_, rfl, by decide⟩, ⟨_, rfl, by decide⟩, ⟨_, rfl, by decide⟩⟩

theorem witness_ReservedOpcodes :
    ReservedOpcode 0x00 ∧ ReservedOpcode 0x06 ∧ ReservedOpcode 0x0F ∧ ReservedOpcode 0x13 ∧ ReservedOpcode 0x1F ∧
      ReservedOpcode 0x21 ∧ ReservedOpcode 0xFF ∧ ¬ReservedOpcode 0x05 ∧ ¬ReservedOpcode 0x10 ∧
      ¬ReservedOpcode 0x12 ∧ ¬ReservedOpcode 0x20 ∧
      (waiting (.host [0x13, 0x00])).port = .host (0x13 :: [0x00]) :: [] := by
  simp [ReservedOpcode, waiting]

/-- Each kind of mismatch (V-REF-2 the second), and that the implied lengths are none. -/
theorem witness_LengthMismatch :
    LengthMismatch [0x01] ∧ LengthMismatch [0x01, 0x05, 0xD4, 0x40] ∧ LengthMismatch [0x05, 0x00, 0x00] ∧
      LengthMismatch [0x02, 0x00] ∧ LengthMismatch [0x02, 0x01, 0x00, 0x00] ∧ LengthMismatch [0x03] ∧
      LengthMismatch [0x20, 0x04, 0x00] ∧ LengthMismatch [0x12, 0x00] ∧ ¬LengthMismatch [0x10] ∧
      ¬LengthMismatch [0x01, 0x00] ∧ ¬LengthMismatch [0x02, 0x00, 0x00] ∧ ¬LengthMismatch [0x20, 0x04] := by
  simp [LengthMismatch]

/-- The limits of V-REF-3 and V-REF-5, and each limit one short of what the operation needs. -/
theorem witness_RefusalRule :
    (limited 0 6 9).cfg.maxRead < ackImage.length ∧
    ((limited 8 20 9).cfg.maxWrite < (limited 8 20 9).cfg.samPayload.length + 7) ∧ (limited 10 8 9).cfg.maxRead < 9 ∧
    ({ Config.decidedWith 0x24 10 20 0 with primeBytes := List.replicate 11 0x00 } : Config).maxWrite < 11 ∧
    (limited 10 20 9).cfg.maxWrite < (limited 10 20 9).cfg.ilptPayload.length + 7 ∧
    (limited 22 6 9).cfg.maxRead < 7 ∧ (limited 22 19 9).cfg.maxRead < (limited 22 19 9).cfg.ilptReadLen ∧
    (limited 16 20 9).cfg.maxWrite < 22 ∧ (limited 22 10 9).cfg.maxRead < (limited 22 10 9).cfg.authReadLen := by
  decide

theorem witness_FurtherRefusals :
    65535 < (List.replicate 65536 (0x00 : Byte)).length ∧ 255 < (List.replicate 256 (0x00 : Byte)).length ∧
      255 < ({ Config.decided with samPayload := List.replicate 256 0x00 } : Config).samPayload.length ∧
      (limited 9 20 9).cfg.maxWrite < 10 ∧
      (waiting (.host [])).port = .host [] :: [] ∧
      decode (.command (List.replicate 256 0x00)) = none ∧
      (waiting (.command (List.replicate 256 0x00))).port = .command (List.replicate 256 0x00) :: [] := by
  simp [-List.reduceReplicate, limited, State.resetWith, Config.decidedWith, waiting]
  rfl

theorem witness_StalledOperationHasNoStep :
    (ackImage ≠ [] ∧ ackImage.length ≤ 255 ∧ ackImage.length ≤ (limited 22 20 0).cfg.maxRead ∧
      (limited 22 20 0).device.completes 1 = false) ∧
    ((limited 22 20 3).cfg.primeBytes.length ≤ (limited 22 20 3).cfg.maxWrite ∧
      (limited 22 20 3).cfg.samPayload.length ≤ 255 ∧
      (limited 22 20 3).cfg.samPayload.length + 7 ≤ (limited 22 20 3).cfg.maxWrite ∧
      9 ≤ (limited 22 20 3).cfg.maxRead ∧ (limited 22 20 3).device.completes 4 = false) ∧
    ((limited 22 20 2).cfg.ilptPayload.length ≤ 255 ∧ 22 ≤ (limited 22 20 2).cfg.maxWrite ∧
      7 ≤ (limited 22 20 2).cfg.maxRead ∧
      (limited 22 20 2).cfg.ilptPayload.length + 7 ≤ (limited 22 20 2).cfg.maxWrite ∧
      (limited 22 20 2).cfg.ilptReadLen ≤ (limited 22 20 2).cfg.maxRead ∧
      (limited 22 20 2).cfg.authReadLen ≤ (limited 22 20 2).cfg.maxRead ∧
      (limited 22 20 2).device.completes 3 = false) := by decide

theorem witness_StalledWireCommands :
    (limited 11 0 0).device.completes 1 = false ∧ 10 ≤ (limited 11 0 0).cfg.maxWrite ∧
      11 ≤ (limited 11 0 0).cfg.maxWrite := by decide

theorem witness_CardIsReachedOnlyByAuth :
    (∃ t, exec (.auth 0x07) (answering [ackImage, List.replicate 11 0x00]) = .next t ∧ t.trace ≠ []) ∧
    (∃ t, exec (.wireSamConfiguration 0x01) State.reset = .next t ∧ t.trace ≠ []) ∧
    (∃ t, exec (.wireInDataExchangeAuthA 0x01 0x04 keyFF deadBeef) State.reset = .next t) ∧
    decode (.command [0xD4, 0x40, 0x01, 0xA0, 0x04]) = none ∧
    ∃ t, step (waiting (.command [0xD4, 0x40, 0x01, 0xA0, 0x04])) = .next t :=
  ⟨⟨_, rfl, by decide⟩, ⟨_, rfl, by decide⟩, ⟨_, rfl⟩, by decide, _, rfl⟩

theorem witness_WireCommandsSendTheirFrames :
    (limited 11 0 1).device.completes 1 = true ∧ 10 ≤ (limited 11 0 1).cfg.maxWrite ∧
      11 ≤ (limited 11 0 1).cfg.maxWrite := by decide

end Sys2Proof.Tests
end

/-! The frame codec (40_frame_codec.md, R101 to R107): the rules of ENCODE, LCS, DCS and DECODE, and the statements
about them. -/

namespace Sys2Proof.Machine

/-! ### Pure operations: they run, or they are refused -/

theorem runPure_runs {ok : Bool} {f : State → State} {s : State} (h : ok = true) :
    runPure ok f s = .next (f s) := by simp [runPure, h]

theorem runPure_refuses {ok : Bool} {f : State → State} {s : State} (h : ok = false) :
    runPure ok f s = .next (refuse s) := by simp [runPure, h]

theorem exec_encode_runs {p : List Byte} (h : p.length ≤ 255) (s : State) :
    exec (.encode p) s = .next (complete (.bytes (encodeFrame p)) s) :=
  runPure_runs (decide_eq_true h)

theorem exec_encode_refuses {p : List Byte} (h : 255 < p.length) (s : State) :
    exec (.encode p) s = .next (refuse s) :=
  runPure_refuses (decide_eq_false (by omega))

theorem exec_dcs_runs {p : List Byte} (h : p.length ≤ 255) (s : State) :
    exec (.dcs p) s = .next (complete (.byte (dcs p)) s) :=
  runPure_runs (decide_eq_true h)

theorem exec_decode_runs {r : List Byte} (h : r.length ≤ 65535) (s : State) :
    exec (.decode r) s = .next (decodeEffect r s) :=
  runPure_runs (decide_eq_true h)

/-! ### Counted operands of a host command (R86, R88) -/

theorem countedOperand_cons {f : List Byte → Instr} {l : Byte} {p : List Byte} (h : p.length = l.toNat) :
    countedOperand f (l :: p) = some (f p) := if_pos h

theorem counted16Operand_cons {f : List Byte → Instr} {hi lo : Byte} {r : List Byte}
    (h : r.length = hi.toNat * 256 + lo.toNat) : counted16Operand f (hi :: lo :: r) = some (f r) := if_pos h

/-! ### Checksums (R100) -/

theorem byteSum_eq_sum_map (p : List Byte) : byteSum p = (p.map BitVec.toNat).sum := by
  induction p with
  | nil => rfl
  | cons x xs ih => simp [byteSum, ih]

theorem dcs_eq_ofNat_sum_map (p : List Byte) :
    dcs p = BitVec.ofNat 8 ((256 - (p.map BitVec.toNat).sum % 256) % 256) := by
  rw [dcs, byteSum_eq_sum_map]

/-- R100 (c). -/
theorem dcs_eq_zero_iff (p : List Byte) : dcs p = 0x00 ↔ (p.map BitVec.toNat).sum % 256 = 0 := by
  rw [← byteSum_eq_sum_map, eq_comm]
  exact (dcs_test_iff p 0x00).symm

/-- The fixed points of the length checksum: twice the byte is a multiple of 256. -/
theorem lcs_eq_self_iff (l : Byte) : lcs l = l ↔ l = 0x00 ∨ l = 0x80 := by
  have hl := l.isLt
  simp only [← BitVec.toNat_inj, toNat_lcs, BitVec.reduceToNat]
  omega

/-! ### The frame ENCODE builds (R70, R101) -/

theorem lenByte_of_length {p : List Byte} {l : Byte} (h : p.length = l.toNat) : lenByte p = l := by
  rw [lenByte, h, BitVec.ofNat_toNat, BitVec.setWidth_eq]

theorem getElem?_encodeFrame_lcs (p : List Byte) : (encodeFrame p)[4]? = some (lcs (lenByte p)) := rfl

theorem getElem?_encodeFrame_dcs (p : List Byte) : (encodeFrame p)[p.length + 5]? = some (dcs p) := by
  simp [encodeFrame]

/-! ### What DECODE computes (R105, R106) -/

theorem payloadRegion_eq (c : Config) (r : List Byte) :
    payloadRegion c r = (r.drop (c.lenOff + 2)).take (announcedLength c r).toNat := slice_add r _ _

theorem leadOk_eq (c : Config) (r : List Byte) :
    leadOk c r = decide (c.sliceStart < r.length ∧ r[c.sliceStart]? = some c.lead) := by
  rw [Bool.eq_iff_iff, leadOk, byteAt, beq_iff_eq, decide_eq_true_iff]
  exact ⟨fun h => ⟨(List.getElem?_eq_some_iff.mp h).1, h⟩, And.right⟩

/-- A received LCS comes after a LEN byte that is there, so the LEN byte is the announced length. -/
theorem lcsOk_eq (c : Config) (r : List Byte) :
    lcsOk c r = decide (c.lenOff + 1 < r.length ∧
      ((r.getD c.lenOff 0x00).toNat + (r.getD (c.lenOff + 1) 0x00).toNat) % 256 = 0) := by
  by_cases h : c.lenOff + 1 < r.length
  · have hlen : c.lenOff < r.length := by omega
    simp [lcsOk, receivedLcs, byteAt, announcedLength_eq, h, hlen, beq_eq_decide]
  · simp [lcsOk, receivedLcs, byteAt, h]

theorem dcsOk_eq (c : Config) (r : List Byte) :
    dcsOk c r = decide (c.lenOff + 2 + (announcedLength c r).toNat < r.length ∧
      (((payloadRegion c r).map BitVec.toNat).sum +
        (r.getD (c.lenOff + 2 + (announcedLength c r).toNat) 0x00).toNat) % 256 = 0) := by
  by_cases h : c.lenOff + 2 + (announcedLength c r).toNat < r.length
  · simp [dcsOk, receivedDcs, byteAt, byteSum_eq_sum_map, h, beq_eq_decide]
  · simp [dcsOk, receivedDcs, byteAt, h]

/-- The record of R104, its slice and its three bytes as positions in the buffer. -/
theorem decodeFrame_eq (c : Config) (r : List Byte) :
    decodeFrame c r =
      { len := announcedLength c r
        slice := (r.drop c.sliceStart).take ((announcedLength c r).toNat + 8)
        payload := payloadRegion c r
        lcs := r[c.lenOff + 1]?
        dcs := r[c.lenOff + 2 + (announcedLength c r).toNat]?
        post := r[c.lenOff + 3 + (announcedLength c r).toNat]?
        leadOk := leadOk c r
        lcsOk := lcsOk c r
        dcsOk := dcsOk c r
        short := shortImage c r } := by
  rw [← slice_add, ← Nat.add_assoc]
  rfl

/-! ### The statements -/

/-- Settles O24, from the run and the refusal of ENCODE and the places of the two checksums in its frame. -/
theorem encodeBuildsFrame : Obligations.EncodeBuildsFrame := by
  refine ⟨fun p l h => countedOperand_cons h, fun s p l h => ?whole, fun s p h => exec_encode_refuses h s,
    length_encodeFrame, rfl, fun p h => ⟨by rw [length_encodeFrame, h], ?lcsAtFull⟩, fun p _ h => ?dcsZero, by decide⟩
  case whole =>
    have hp : p.length ≤ 255 := by have := l.isLt; omega
    rw [exec_encode_runs hp, encodeFrame, lenByte_of_length h]
    rfl
  case lcsAtFull =>
    rw [getElem?_encodeFrame_lcs, lenByte, h]
    rfl
  case dcsZero => rw [getElem?_encodeFrame_dcs, (dcs_eq_zero_iff p).mpr h]

/-- Settles O27: R107's reporting (`reportDecode_eq`) of the record, whose fields are the positions and tests that
R105 and R106 give. -/
theorem decodeParsesImage : Obligations.DecodeParsesImage := by
  refine ⟨fun r hi lo h => counted16Operand_cons h, fun s r h => ?_⟩
  rw [exec_decode_runs h, decodeEffect, reportDecode_eq, decodeFrame_eq]
  simp only [← announcedLength_eq, ← payloadRegion_eq, ← leadOk_eq, ← lcsOk_eq, ← dcsOk_eq]
  rfl

/-- Settles O25, with the fixed points from `lcs_eq_self_iff`. -/
theorem lcsResult : Obligations.LcsResult :=
  ⟨fun _ => rfl, fun _ _ => rfl, by decide, by decide, by decide, by decide, lcs_eq_self_iff⟩

/-- Settles O26; the sum of 255 bytes `FF` is 255 * 255. -/
theorem dcsResult : Obligations.DcsResult := by
  refine ⟨fun p l h => countedOperand_cons h, fun s p h => ?whole, by decide, by decide, by decide, by decide, ?full,
    by decide⟩
  case whole =>
    rw [exec_dcs_runs h, dcs_eq_ofNat_sum_map]
    rfl
  case full =>
    rw [dcs_eq_ofNat_sum_map, List.map_replicate, List.sum_replicate]
    decide

end Sys2Proof.Machine

/-! The session (42_session.md): SESSION_NEW (R150), and no operation gated by `SSTATE` or `RUNNING` (R153). -/

namespace Sys2Proof.Machine

/-- Settles O38: `exec` of SESSION_NEW is the empty session, completed with the empty result. -/
theorem sessionNewEmptiesSession : Obligations.SessionNewEmptiesSession := ⟨rfl, fun _ => rfl⟩

/-! ### Two runs of one instruction -/

theorem sameOutcome_runPure {agree : State → State → Prop} {ok : Bool} {f : State → State} {s t : State}
    (hf : agree (f s) (f t)) (hr : agree (refuse s) (refuse t)) :
    SameOutcome agree (runPure ok f s) (runPure ok f t) := by
  cases ok with
  | false => exact hr
  | true => exact hf

theorem sameOutcome_runTransport {agree : State → State → Prop} {ok : Bool} {k : Nat} {f : State → State}
    {s t : State} (hd : s.device = t.device) (hf : agree (f s) (f t)) (hr : agree (refuse s) (refuse t)) :
    SameOutcome agree (runTransport ok k f s) (runTransport ok k f t) := by
  cases ok with
  | false => exact hr
  | true =>
    cases hc : s.device.completes k with
    | false => rw [runTransport_stalls rfl hc, runTransport_stalls rfl (hd ▸ hc)]; rfl
    | true => rw [runTransport_runs rfl hc, runTransport_runs rfl (hd ▸ hc)]; exact hf

/-! ### Writing the two registers an order check could read

Each part of an operation meets `withGate` in one rule. -/

/-- The state with `m` in `SSTATE` and `r` in `RUNNING`. -/
def State.withGate (s : State) (m : BitVec 3) (r : Bool) : State := { s with sstate := m, running := r }

theorem eq_withGate_of_blankGate_eq {s t : State} (h : s.blankGate = t.blankGate) :
    t = s.withGate t.sstate t.running :=
  calc t = t.blankGate.withGate t.sstate t.running := rfl
    _ = s.blankGate.withGate t.sstate t.running := by rw [h]
    _ = s.withGate t.sstate t.running := rfl

section
variable (s : State) (m : BitVec 3) (r : Bool)

@[simp] theorem cfg_withGate : (s.withGate m r).cfg = s.cfg := rfl
@[simp] theorem device_withGate : (s.withGate m r).device = s.device := rfl
@[simp] theorem sstate_withGate : (s.withGate m r).sstate = m := rfl
@[simp] theorem running_withGate : (s.withGate m r).running = r := rfl

@[simp] theorem withFlag_withGate (f : Flag) (v : Bool) :
    (s.withGate m r).withFlag f v = (s.withFlag f v).withGate m r := rfl

@[simp] theorem complete_withGate (v : Result) : complete v (s.withGate m r) = (complete v s).withGate m r := rfl

@[simp] theorem txWrite_withGate (b : List Byte) : txWrite b (s.withGate m r) = (txWrite b s).withGate m r := rfl

@[simp] theorem txReadBytes_withGate (n : Nat) : txReadBytes n (s.withGate m r) = txReadBytes n s := rfl

@[simp] theorem txRead_withGate (n : Nat) : txRead n (s.withGate m r) = (txRead n s).withGate m r := rfl

@[simp] theorem raiseIf_withGate (c : Bool) (d : Diag) :
    raiseIf c d (s.withGate m r) = (raiseIf c d s).withGate m r := by
  cases c <;> rfl

@[simp] theorem expectOk_withGate (e : List Byte) : expectOk e (s.withGate m r) = expectOk e s := rfl

theorem raiseMismatch_withGate (e b : List Byte) :
    raiseMismatch e b (s.withGate m r) = (raiseMismatch e b s).withGate m r := by
  unfold raiseMismatch
  cases firstMismatch e b <;> rfl

theorem expectRead_withGate (e : List Byte) : expectRead e (s.withGate m r) = (expectRead e s).withGate m r := by
  cases e with
  | nil => rfl
  | cons x xs => exact raiseMismatch_withGate (txRead _ s) m r _ _

@[simp] theorem expectStep_withGate (e : List Byte) :
    expectStep e (s.withGate m r) = (expectStep e s).withGate m r := by
  unfold expectStep
  rw [expectRead_withGate]
  rfl

@[simp] theorem authCommand_withGate (a : Byte) : authCommand a (s.withGate m r) = authCommand a s := rfl

@[simp] theorem authFinish_withGate (a : Byte) (k : Bool) (st : Byte) :
    authFinish a k st (s.withGate m r) = (authFinish a k st s).withGate m r := by
  unfold authFinish
  rw [raiseIf_withGate]
  rfl

/-- WAKE writes `SSTATE` before its first call. -/
@[simp] theorem wakeSend_withGate : wakeSend (s.withGate m r) = (wakeSend s).withGate SState.waking r := rfl

/-- FIND_TARGET writes `SSTATE` before its first call. -/
@[simp] theorem findTargetSend_withGate :
    findTargetSend (s.withGate m r) = (findTargetSend s).withGate SState.searching r := rfl

/-- Both answers of FIND_TARGET end in an `SSTATE` of their own. -/
@[simp] theorem recordTarget_withGate (k : Nat) (b : List Byte) :
    recordTarget k b (s.withGate m r) = (recordTarget k b s).withGate (recordTarget k b s).sstate r := by
  unfold recordTarget
  rw [cfg_withGate]
  cases presence s.cfg b <;> rfl

end

/-! ### What an effect does with the two registers -/

/-- The effect `f` reads neither `SSTATE` nor `RUNNING`: whatever the two hold, the rest of its next state is the
same, and the two are kept, or only `RUNNING` is kept, or both get one value. -/
inductive GateBlind (f : State → State) (s : State) : Prop where
  | keepsBoth (h : ∀ m r, f (s.withGate m r) = (f s).withGate m r)
  | keepsRunning (h : ∀ m r, f (s.withGate m r) = (f s).withGate (f s).sstate r)
  | writesBoth (h : ∀ m r, f (s.withGate m r) = f s)

/-- R153's agreement of two runs, from `s` to `s'` and from `t` to `t'`. -/
def GateAgree (s t s' t' : State) : Prop :=
  s'.blankGate = t'.blankGate ∧ WrittenAlike State.sstate s t s' t' ∧ WrittenAlike State.running s t s' t'

/-- A register that is kept for every value is kept for the value it holds. -/
theorem GateBlind.agree {f : State → State} {s : State} (hf : GateBlind f s) (m : BitVec 3) (r : Bool) :
    GateAgree s (s.withGate m r) (f s) (f (s.withGate m r)) := by
  cases hf with
  | keepsBoth h =>
    have hself : f s = (f s).withGate s.sstate s.running := h s.sstate s.running
    have hsstate : (f s).sstate = s.sstate := by rw [hself, sstate_withGate]
    have hrunning : (f s).running = s.running := by rw [hself, running_withGate]
    rw [h]
    exact ⟨rfl, .inl ⟨hsstate, rfl⟩, .inl ⟨hrunning, rfl⟩⟩
  | keepsRunning h =>
    have hself : f s = (f s).withGate (f s).sstate s.running := h s.sstate s.running
    have hrunning : (f s).running = s.running := by rw [hself, running_withGate]
    rw [h]
    exact ⟨rfl, .inr rfl, .inl ⟨hrunning, rfl⟩⟩
  | writesBoth h =>
    rw [h]
    exact ⟨rfl, .inr rfl, .inr rfl⟩

theorem gateBlind_refuse (s : State) : GateBlind refuse s := .keepsBoth fun _ _ => rfl

theorem gateBlind_complete (v : Result) (s : State) : GateBlind (complete v) s := .keepsBoth fun _ _ => rfl

theorem gateBlind_stage (b : List Byte) (s : State) : GateBlind (stage b) s := .keepsBoth fun _ _ => rfl

theorem gateBlind_txWrite (b : List Byte) (s : State) : GateBlind (txWrite b) s := .keepsBoth fun _ _ => rfl

theorem gateBlind_sessionNew (s : State) : GateBlind (fun s => complete .none (emptySession s)) s :=
  .keepsBoth fun _ _ => rfl

theorem gateBlind_decodeEffect (b : List Byte) (s : State) : GateBlind (decodeEffect b) s := by
  refine .keepsBoth fun m r => ?_
  simp only [decodeEffect, reportDecode_eq]
  rfl

theorem gateBlind_expectEffect (e : List Byte) (s : State) : GateBlind (expectEffect e) s :=
  .keepsBoth fun m r => by simp [expectEffect]

theorem gateBlind_authEffect (a : Byte) (s : State) : GateBlind (authEffect a) s :=
  .keepsBoth fun m r => by simp [authEffect]

theorem gateBlind_findTargetEffect (s : State) : GateBlind findTargetEffect s :=
  .keepsRunning fun m r => by simp [findTargetEffect]

/-- WAKE's last part writes `SSTATE`; it keeps `RUNNING` only where a failure does not clear it. -/
theorem wakeFinish_withGate (a c : Bool) (s : State) :
    (∀ m r, wakeFinish a c (s.withGate m r) = wakeFinish a c s) ∨
    (∀ m r, wakeFinish a c (s.withGate m r) = (wakeFinish a c s).withGate (wakeFinish a c s).sstate r) := by
  unfold wakeFinish
  cases hok : a && c with
  | true => exact .inl fun _ _ => rfl
  | false =>
    cases hclear : s.cfg.wakeFailClearsRunning with
    | true => exact .inl fun _ _ => by simp [hclear, State.withGate]
    | false => exact .inr fun _ _ => by simp [hclear, State.withGate, complete]

theorem gateBlind_wakeEffect (s : State) : GateBlind wakeEffect s := by
  let sent := wakeSend s
  let acked := expectStep ackImage sent
  rcases wakeFinish_withGate (expectOk ackImage sent) (expectOk wakeConfImage acked) (expectStep wakeConfImage acked)
    with h | h
  · exact .writesBoth fun m r => by simp [wakeEffect, sent, acked, h]
  · exact .keepsRunning fun m r => by simp [wakeEffect, sent, acked, h]

/-- Settles O19: each instruction's effect is gate-blind, and what accepts it or lets it complete reads the
configuration, the session and the device only. -/
theorem noStateGating : Obligations.NoStateGating := by
  intro i s t h
  rw [eq_withGate_of_blankGate_eq h]
  generalize t.sstate = m
  generalize t.running = r
  have hpure {ok : Bool} {f : State → State} (hf : GateBlind f s) :
      SameOutcome (GateAgree s (s.withGate m r)) (runPure ok f s) (runPure ok f (s.withGate m r)) :=
    sameOutcome_runPure (hf.agree m r) ((gateBlind_refuse s).agree m r)
  have hform (p : List Byte) :
      SameOutcome (GateAgree s (s.withGate m r)) (formFrame p s) (formFrame p (s.withGate m r)) :=
    hpure (gateBlind_complete _ s)
  have htransport {ok : Bool} {k : Nat} {f : State → State} (hf : GateBlind f s) :
      SameOutcome (GateAgree s (s.withGate m r)) (runTransport ok k f s) (runTransport ok k f (s.withGate m r)) :=
    sameOutcome_runTransport rfl (hf.agree m r) ((gateBlind_refuse s).agree m r)
  cases i with
  | encode p => exact hform p
  | decode b => exact hpure (gateBlind_decodeEffect b s)
  | lcs l => exact (gateBlind_complete _ s).agree m r
  | dcs p => exact hpure (gateBlind_complete _ s)
  | expect e => exact htransport (gateBlind_expectEffect e s)
  | wake => exact htransport (gateBlind_wakeEffect s)
  | findTarget => exact htransport (gateBlind_findTargetEffect s)
  | sessionNew => exact (gateBlind_sessionNew s).agree m r
  | auth a => exact htransport (gateBlind_authEffect a s)
  | wireSamConfiguration mode => exact htransport (gateBlind_txWrite _ s)
  | wireInListPassiveTarget maxTg brTy => exact htransport (gateBlind_txWrite _ s)
  | wireInDataExchangeAuthA tg a key uid => exact hform (authPayload tg 0x60 a key uid)
  | wireInDataExchangeRead16 tg a => exact hform (read16Payload tg a)
  | wireAck => exact (gateBlind_stage _ s).agree m r
  | wireWakeConf => exact (gateBlind_stage _ s).agree m r
  | wireInListPassiveTargetResp nbTg tg sens0 sens1 sel idLen uid => exact (gateBlind_stage _ s).agree m r
  | wireInDataExchangeResp st => exact (gateBlind_stage _ s).agree m r

end Sys2Proof.Machine

/-! Reset (70_reset_and_hazards.md, R230). -/

namespace Sys2Proof.Machine

/-- Settles O7: one equation for each row of R230's table, true by the definition of `State.resetWith`, which takes
no register's value from the configuration, the queue or the device. -/
theorem resetRegisterValues : Obligations.ResetRegisterValues := fun _ _ _ =>
  ⟨(rfl : State.present _ = false), (rfl : State.tgid _ = 0x00), (rfl : State.uid _ = zeroUid),
    (rfl : State.running _ = false), (rfl : State.sstate _ = SState.asleep), (rfl : State.status _ = 0x00),
    (rfl : State.authStatus _ = 0x00), (rfl : State.diag _ = []), (rfl : State.trace _ = []),
    (rfl : State.hpc _ = 0), (rfl : State.result _ = .none), (rfl : State.refused _ = false)⟩

end Sys2Proof.Machine

/-! What a run of an instruction changes, written as data (`Update`) that is computed from the configuration, the
device and the session alone; `exec_eq` ties it to `exec`, and the statements about every operation read it. -/

namespace Sys2Proof.Machine

/-! ### The comparator's record as a function -/

/-- What the comparator appends to `DIAG` for the expected bytes `e` and the bytes read `b` (R131). -/
def mismatchDiags (e b : List Byte) : List Diag :=
  match firstMismatch e b with
  | none => []
  | some j => [.transportMismatch j b]

theorem raiseMismatch_eq_mismatchDiags (e b : List Byte) (s : State) :
    raiseMismatch e b s = { s with diag := s.diag ++ mismatchDiags e b } := by
  unfold raiseMismatch mismatchDiags
  cases firstMismatch e b with
  | none => simp
  | some j => rfl

theorem mismatchRecords_mismatchDiags {e b : List Byte} (h : b.length = e.length) :
    MismatchRecords e b (mismatchDiags e b) := by
  obtain ⟨d, hd, heq⟩ := raiseMismatch_eq h State.reset
  rw [raiseMismatch_eq_mismatchDiags] at heq
  have hdiag : mismatchDiags e b = d := by simpa using congrArg State.diag heq
  exact hdiag ▸ hd

theorem mem_mismatchDiags {e b : List Byte} {x : Diag} (h : x ∈ mismatchDiags e b) :
    ∃ j, x = .transportMismatch j b := by
  unfold mismatchDiags at h
  cases hm : firstMismatch e b with
  | none => simp [hm] at h
  | some j => exact ⟨j, by simpa [hm] using h⟩

/-- Bytes read as expected leave no record. -/
@[simp] theorem mismatchDiags_self (e : List Byte) : mismatchDiags e e = [] := by
  rw [mismatchDiags, (firstMismatch_none rfl).2 rfl]

/-- `EXPECT(e)` inside an operation, with its record computed. -/
theorem expectStep_eq_mismatchDiags {e : List Byte} (he : e ≠ []) (s : State) :
    expectStep e s =
      { s with
        trace := s.trace ++ [.read e.length (s.device.answer e.length)]
        device := s.device.afterRead
        diag := s.diag ++ mismatchDiags e (s.device.answer e.length)
        status := setFlag .ackOk (decide (s.device.answer e.length = e)) s.status
        result := .bool (decide (s.device.answer e.length = e)) } := by
  obtain ⟨d, hd, heq⟩ := expectStep_eq he s
  rw [heq, (mismatchRecords_mismatchDiags (length_answer s.device e.length)).unique hd]

/-! ### Updates -/

/-- The flags of `STATUS` after the writes `ws`, made in order. -/
def setFlags (ws : List (Flag × Bool)) (status : BitVec 8) : BitVec 8 :=
  ws.foldl (fun st w => setFlag w.1 w.2 st) status

/-- What a run that is not refused does to the state: new values of the device and the session, values written to the
other registers where one is written, and what the logs and `HPC` grow by. -/
structure Update where
  device : Device
  present : Bool
  tgid : Byte
  uid : Uid
  running : Option Bool
  sstate : Option (BitVec 3)
  flags : List (Flag × Bool)
  authStatus : Option Byte
  diag : List Diag
  trace : List Event
  hpc : Nat
  result : Option Result

/-- The update of `s` that changes nothing. -/
def Update.keep (s : State) : Update where
  device := s.device
  present := s.present
  tgid := s.tgid
  uid := s.uid
  running := none
  sstate := none
  flags := []
  authStatus := none
  diag := []
  trace := []
  hpc := 0
  result := none

/-- `s` after the update `u`. -/
def State.update (s : State) (u : Update) : State :=
  { s with
    device := u.device
    present := u.present
    tgid := u.tgid
    uid := u.uid
    running := u.running.getD s.running
    sstate := u.sstate.getD s.sstate
    status := setFlags u.flags s.status
    authStatus := u.authStatus.getD s.authStatus
    diag := s.diag ++ u.diag
    trace := s.trace ++ u.trace
    hpc := s.hpc + u.hpc
    result := u.result.getD s.result }

/-! ### The update of each instruction -/

/-- An operation that completes and writes its result alone. -/
def Update.complete (r : Result) (s : State) : Update := { Update.keep s with hpc := 1, result := some r }

/-- A staged answer (log 7). -/
def Update.stage (b : List Byte) (s : State) : Update :=
  { Update.keep s with device := { s.device with staged := s.device.staged ++ [b] } }

/-- A command that is sent and awaits no answer (log 6). -/
def Update.send (p : List Byte) (s : State) : Update :=
  { Update.keep s with device := s.device.afterCalls 1 0, trace := [.write (encodeFrame p), .settle] }

/-- DECODE's records, one for each failed check, in the order of R107. -/
def decodeDiags (c : Config) (r : List Byte) : List Diag :=
  (if leadOk c r then [] else [.malformedFrame (.lead (byteAt r c.sliceStart))]) ++
    (if lcsOk c r then [] else [.malformedFrame (.lcs (receivedLcs c r))]) ++
    (if dcsOk c r then [] else [.malformedFrame (.dcs (receivedDcs c r))]) ++
    (if shortImage c r then [.malformedFrame (.short r.length)] else [])

/-- DECODE's four flags and its records (R107). -/
def decodeUpdate (r : List Byte) (s : State) : Update :=
  { Update.complete (.frame (decodeFrame s.cfg r)) s with
    flags := [(.leadOk, leadOk s.cfg r), (.lcsOk, lcsOk s.cfg r), (.dcsOk, dcsOk s.cfg r), (.short, shortImage s.cfg r)]
    diag := decodeDiags s.cfg r }

/-- EXPECT's one read, or none for an empty sequence (R131, D21). -/
def expectUpdate (e : List Byte) (s : State) : Update :=
  let b := s.device.answer e.length
  { Update.complete (.bool (decide (b = e))) s with
    device := if e.isEmpty then s.device else s.device.afterCalls 0 1
    flags := [(.ackOk, decide (b = e))]
    diag := mismatchDiags e b
    trace := if e.isEmpty then [] else [.read e.length b] }

/-- WAKE's two writes and two reads with both verdicts (R141, R142). -/
def wakeUpdate (s : State) : Update :=
  let r1 := s.device.answer 7
  let r2 := (s.device.afterCalls 0 1).answer 9
  let ok := decide (r1 = ackImage) && decide (r2 = wakeConfImage)
  { Update.complete (.bool ok) s with
    device := s.device.afterCalls 2 2
    running := if ok then some true else if s.cfg.wakeFailClearsRunning then some false else none
    sstate := some (if ok then SState.idle else SState.asleep)
    flags := [(.confOk, decide (r2 = wakeConfImage)), (.ackOk, decide (r1 = ackImage))]
    diag := mismatchDiags ackImage r1 ++ mismatchDiags wakeConfImage r2
    trace := [.write s.cfg.primeBytes, .settle, .write (encodeFrame s.cfg.samPayload), .settle, .read 7 r1,
      .read 9 r2] }

/-- FIND_TARGET's write and two reads with the session it records (R145, R146). -/
def findTargetUpdate (s : State) : Update :=
  let r1 := s.device.answer 7
  let r2 := (s.device.afterCalls 0 1).answer s.cfg.ilptReadLen
  let found := presence s.cfg r2
  { Update.complete (.bool found) s with
    device := s.device.afterCalls 1 2
    present := found
    tgid := if found then s.cfg.tgidFound else 0x00
    uid := if found then uidWindow s.cfg (s.device.reads + 1) r2 else zeroUid
    sstate := some (if found then SState.targetFound else SState.noTarget)
    flags := [(.ackOk, decide (r1 = ackImage)), (.found, found)]
    diag := mismatchDiags ackImage r1
    trace := [.write (encodeFrame s.cfg.ilptPayload), .settle, .read 7 r1, .read s.cfg.ilptReadLen r2] }

/-- The status byte AUTH reads (R173): the answer to its second read, at the configured offset. -/
def authStatusByte (s : State) : Byte :=
  fixedByte (s.device.reads + 1) ((s.device.afterCalls 0 1).answer s.cfg.authReadLen) s.cfg.authStatusOff

/-- AUTH's write and two reads with the status it reports (R171, R173). -/
def authUpdate (a : Byte) (s : State) : Update :=
  let r1 := s.device.answer 7
  let st := authStatusByte s
  { Update.complete (.bool (decide (st = 0x00))) s with
    device := s.device.afterCalls 1 2
    flags := [(.ackOk, decide (r1 = ackImage)), (.authOk, decide (st = 0x00))]
    authStatus := some st
    diag := mismatchDiags ackImage r1 ++ (if st = 0x00 then [] else [.authFailure a st])
    trace := [.write (encodeFrame (authCommand a s)), .settle, .read 7 r1,
      .read s.cfg.authReadLen ((s.device.afterCalls 0 1).answer s.cfg.authReadLen)] }

/-- The update of an instruction that is not refused and does not stall. -/
def updateOf (i : Instr) (s : State) : Update :=
  match i with
  | .encode p => .complete (.bytes (encodeFrame p)) s
  | .decode r => decodeUpdate r s
  | .lcs len => .complete (.byte (lcs len)) s
  | .dcs p => .complete (.byte (dcs p)) s
  | .expect e => expectUpdate e s
  | .wake => wakeUpdate s
  | .findTarget => findTargetUpdate s
  | .sessionNew => { Update.complete .none s with present := false, tgid := 0x00, uid := zeroUid }
  | .auth a => authUpdate a s
  | .wireSamConfiguration mode => .send (samPayload mode) s
  | .wireInListPassiveTarget maxTg brTy => .send (ilptPayload maxTg brTy) s
  | .wireInDataExchangeAuthA tg a key uid => .complete (.bytes (encodeFrame (authPayload tg 0x60 a key uid))) s
  | .wireInDataExchangeRead16 tg a => .complete (.bytes (encodeFrame (read16Payload tg a))) s
  | .wireAck => .stage ackImage s
  | .wireWakeConf => .stage wakeConfImage s
  | .wireInListPassiveTargetResp nbTg tg s0 s1 sel idLen uid =>
    .stage (responseImage (ilptRespPayload nbTg tg s0 s1 sel idLen uid)) s
  | .wireInDataExchangeResp st => .stage (responseImage (dataExchangeRespPayload st)) s

/-- No rule refuses the instruction: operands a command can carry, and every transport call within the limits. -/
def accepts (i : Instr) (s : State) : Bool :=
  match i with
  | .encode p => decide (p.length ≤ 255)
  | .decode r => decide (r.length ≤ 65535)
  | .dcs p => decide (p.length ≤ 255)
  | .expect e => decide (e.length ≤ 255) && readable s.cfg e.length
  | .wake => wakeFits s.cfg
  | .findTarget => findTargetFits s.cfg
  | .auth a => authFits a s
  | .wireSamConfiguration mode => sendable s.cfg (samPayload mode)
  | .wireInListPassiveTarget maxTg brTy => sendable s.cfg (ilptPayload maxTg brTy)
  | _ => true

/-- How many transport calls the instruction makes. -/
def calls : Instr → Nat
  | .expect e => if e.isEmpty then 0 else 1
  | .wake => 4
  | .findTarget => 3
  | .auth _ => 3
  | .wireSamConfiguration _ => 1
  | .wireInListPassiveTarget _ _ => 1
  | _ => 0

/-! ### The effects of the model are these updates -/

theorem update_complete (r : Result) (s : State) : s.update (.complete r s) = complete r s := by
  simp [State.update, Update.complete, Update.keep, complete, setFlags]

theorem update_stage (b : List Byte) (s : State) : s.update (.stage b s) = stage b s := by
  simp [State.update, Update.stage, Update.keep, stage, setFlags]

theorem update_send (p : List Byte) (s : State) : s.update (.send p s) = txWrite (encodeFrame p) s := by
  simp [State.update, Update.send, Update.keep, txWrite, setFlags, afterWrite_eq]

theorem update_sessionNew (s : State) : s.update (updateOf .sessionNew s) = complete .none (emptySession s) := by
  simp [State.update, updateOf, Update.complete, Update.keep, complete, emptySession, setFlags]

theorem update_decode (r : List Byte) (s : State) : s.update (decodeUpdate r s) = decodeEffect r s := by
  simp [State.update, decodeUpdate, decodeDiags, decodeFrame, Update.complete, Update.keep, decodeEffect, complete,
    reportDecode_eq, setFlags]

theorem update_expect (e : List Byte) (s : State) : s.update (expectUpdate e s) = expectEffect e s := by
  by_cases he : e = []
  · subst he
    simp [expectEffect, expectStep_nil, expectOk_eq, State.update, expectUpdate, Update.complete, Update.keep, complete,
      setFlags, Device.answer]
  · simp [expectEffect, expectStep_eq_mismatchDiags he, expectOk_eq, State.update, expectUpdate, Update.complete,
      Update.keep, complete, setFlags, afterRead_eq, he]

/-- The acknowledgement's comparison inside WAKE, FIND_TARGET and AUTH. -/
theorem expectStep_ackImage (s : State) :
    expectStep ackImage s =
      { s with
        trace := s.trace ++ [.read 7 (s.device.answer 7)]
        device := s.device.afterRead
        diag := s.diag ++ mismatchDiags ackImage (s.device.answer 7)
        status := setFlag .ackOk (decide (s.device.answer 7 = ackImage)) s.status
        result := .bool (decide (s.device.answer 7 = ackImage)) } :=
  expectStep_eq_mismatchDiags (by decide) s

theorem expectStep_wakeConfImage (s : State) :
    expectStep wakeConfImage s =
      { s with
        trace := s.trace ++ [.read 9 (s.device.answer 9)]
        device := s.device.afterRead
        diag := s.diag ++ mismatchDiags wakeConfImage (s.device.answer 9)
        status := setFlag .ackOk (decide (s.device.answer 9 = wakeConfImage)) s.status
        result := .bool (decide (s.device.answer 9 = wakeConfImage)) } :=
  expectStep_eq_mismatchDiags (by decide) s

theorem expectOk_ackImage (s : State) : expectOk ackImage s = decide (s.device.answer 7 = ackImage) :=
  expectOk_eq ackImage s

theorem expectOk_wakeConfImage (s : State) :
    expectOk wakeConfImage s = decide (s.device.answer 9 = wakeConfImage) := expectOk_eq wakeConfImage s

/-- The answer that follows a read. -/
theorem answer_afterRead (d : Device) (n : Nat) : d.afterRead.answer n = (d.afterCalls 0 1).answer n := by
  rw [afterRead_eq]

@[simp] theorem answer_afterCalls_noReads (d : Device) (w n : Nat) : (d.afterCalls w 0).answer n = d.answer n := rfl

@[simp] theorem reads_afterCalls (d : Device) (w r : Nat) : (d.afterCalls w r).reads = d.reads + r := rfl

theorem raiseIf_eq (c : Bool) (d : Diag) (s : State) :
    raiseIf c d s = { s with diag := s.diag ++ if c then [d] else [] } := by
  cases c with
  | false => simp [raiseIf]
  | true => rfl

/-- `RUNNING` after WAKE: set by success, cleared by a failure only where the configuration says so. -/
theorem getD_wakeRunning (ok clears old : Bool) :
    (if ok then some true else if clears then some false else none).getD old = (ok || (!clears && old)) := by
  cases ok with
  | true => rfl
  | false => cases clears <;> rfl

/-- WAKE's last part as one record update. -/
theorem wakeFinish_eq (a c : Bool) (s : State) :
    wakeFinish a c s =
      { s with
        status := setFlag .ackOk a (setFlag .confOk c s.status)
        running := (a && c) || (!s.cfg.wakeFailClearsRunning && s.running)
        sstate := if a && c then SState.idle else SState.asleep
        result := .bool (a && c)
        hpc := s.hpc + 1 } := by
  unfold wakeFinish
  cases hok : a && c with
  | true => simp [complete, State.withFlag]
  | false => cases hclear : s.cfg.wakeFailClearsRunning <;> simp [complete, State.withFlag, hclear]

/-- What FIND_TARGET's second answer leaves in the session, as one record update. -/
theorem recordTarget_eq (k : Nat) (r : List Byte) (s : State) :
    recordTarget k r s =
      { s with
        present := if presence s.cfg r then true else s.present
        tgid := if presence s.cfg r then s.cfg.tgidFound else s.tgid
        uid := if presence s.cfg r then uidWindow s.cfg k r else s.uid
        sstate := if presence s.cfg r then SState.targetFound else SState.noTarget } := by
  unfold recordTarget
  cases presence s.cfg r <;> rfl

/-- WAKE's comparisons write `ACK_OK` and its last part overwrites it. -/
theorem setFlag_ackOk_confOk_ackOk (a c x y : Bool) (st : BitVec 8) :
    setFlag .ackOk a (setFlag .confOk c (setFlag .ackOk x (setFlag .ackOk y st))) =
      setFlag .ackOk a (setFlag .confOk c st) := by
  rw [setFlag_setFlag_same, setFlag_comm (f := .confOk) (g := .ackOk) (by decide), setFlag_setFlag_same]

theorem update_wake (s : State) : s.update (wakeUpdate s) = wakeEffect s := by
  have hack : expectOk ackImage (wakeSend s) = decide (s.device.answer 7 = ackImage) := expectOk_ackImage _
  have hconf : expectOk wakeConfImage (expectStep ackImage (wakeSend s)) =
      decide ((s.device.afterCalls 0 1).answer 9 = wakeConfImage) := by
    rw [expectOk_wakeConfImage, expectStep_ackImage, answer_afterRead]
    rfl
  simp only [wakeEffect, hack, hconf]
  simp only [wakeFinish_eq, expectStep_ackImage, expectStep_wakeConfImage, setFlag_ackOk_confOk_ackOk]
  simp only [State.update, wakeUpdate, Update.complete, Update.keep, getD_wakeRunning]
  simp [setFlags, wakeSend, afterWrite_eq, afterRead_eq, answer_afterCalls_writes _ 2 1]

theorem update_findTarget (s : State) : s.update (findTargetUpdate s) = findTargetEffect s := by
  simp only [findTargetEffect, findTargetSend, recordTarget_eq, expectStep_ackImage, expectOk_ackImage, txReadBytes]
  simp [State.update, findTargetUpdate, Update.complete, Update.keep, setFlags, State.withFlag, complete, txReadBytes,
    afterWrite_eq, afterRead_eq, answer_afterCalls_writes _ 1 1, setFlag_setFlag_same]

/-- The status byte of AUTH's effect, whatever the command it sent first. -/
theorem fixedByte_second_answer (b : List Byte) (s : State) :
    fixedByte (expectStep ackImage (txWrite b s)).device.reads
        (txReadBytes s.cfg.authReadLen (expectStep ackImage (txWrite b s))) s.cfg.authStatusOff =
      authStatusByte s := by
  simp [expectStep_ackImage, txReadBytes, authStatusByte, afterWrite_eq, afterRead_eq, answer_afterCalls_writes _ 1 1]

theorem update_auth (a : Byte) (s : State) : s.update (authUpdate a s) = authEffect a s := by
  have hst (st : Byte) : (st == 0x00) = decide (st = 0x00) := rfl
  simp only [authEffect, fixedByte_second_answer]
  simp only [authFinish, expectStep_ackImage, expectOk_ackImage, raiseIf_eq, bne, hst]
  simp [State.update, authUpdate, Update.complete, Update.keep, setFlags, State.withFlag, complete, txReadBytes,
    afterWrite_eq, afterRead_eq, answer_afterCalls_writes _ 1 1, setFlag_setFlag_same]

/-! ### What an instruction can answer -/

@[simp] theorem completes_zero (d : Device) : d.completes 0 = true := by
  unfold Device.completes
  cases d.callsLeft with
  | none => rfl
  | some m => simp

theorem runTransport_eq_update {ok : Bool} {k : Nat} {f : State → State} {s : State} {u : Update}
    (h : s.update u = f s) : runTransport ok k f s = runTransport ok k (State.update · u) s := by
  simp only [runTransport, h]

theorem next_eq_update {s t : State} {u : Update} (h : s.update u = t) :
    .next t = runTransport true 0 (State.update · u) s := by
  rw [runTransport_runs rfl (completes_zero _), h]

theorem runPure_eq_update {ok : Bool} {f : State → State} {s : State} {u : Update} (h : s.update u = f s) :
    runPure ok f s = runTransport ok 0 (State.update · u) s := by
  cases ok with
  | false => rfl
  | true => exact next_eq_update h

/-- What `exec` can do, said once: an instruction that is not accepted is refused, one whose calls do not all complete
stalls, and every other run is its update. -/
theorem exec_eq (i : Instr) (s : State) :
    exec i s = runTransport (accepts i s) (calls i) (State.update · (updateOf i s)) s := by
  cases i with
  | encode p => exact runPure_eq_update (update_complete _ s)
  | decode r => exact runPure_eq_update (update_decode r s)
  | lcs len => exact next_eq_update (update_complete _ s)
  | dcs p => exact runPure_eq_update (update_complete _ s)
  | expect e => exact runTransport_eq_update (update_expect e s)
  | wake => exact runTransport_eq_update (update_wake s)
  | findTarget => exact runTransport_eq_update (update_findTarget s)
  | sessionNew => exact next_eq_update (update_sessionNew s)
  | auth a => exact runTransport_eq_update (update_auth a s)
  | wireSamConfiguration mode => exact runTransport_eq_update (update_send _ s)
  | wireInListPassiveTarget maxTg brTy => exact runTransport_eq_update (update_send _ s)
  | wireInDataExchangeAuthA tg a key uid => exact next_eq_update (update_complete _ s)
  | wireInDataExchangeRead16 tg a => exact next_eq_update (update_complete _ s)
  | wireAck => exact next_eq_update (update_stage _ s)
  | wireWakeConf => exact next_eq_update (update_stage _ s)
  | wireInListPassiveTargetResp nbTg tg s0 s1 sel idLen uid => exact next_eq_update (update_stage _ s)
  | wireInDataExchangeResp st => exact next_eq_update (update_stage _ s)

theorem exec_next {i : Instr} {s t : State} (h : exec i s = .next t) :
    (accepts i s = true ∧ t = s.update (updateOf i s)) ∨ (accepts i s = false ∧ t = refuse s) := by
  rw [exec_eq] at h
  rcases runTransport_next h with ⟨hok, -, ht⟩ | ⟨hok, ht⟩
  · exact .inl ⟨hok, ht⟩
  · exact .inr ⟨hok, ht⟩

theorem exec_runs {i : Instr} {s : State} (h : accepts i s = true) (hc : s.device.completes (calls i) = true) :
    exec i s = .next (s.update (updateOf i s)) := by
  rw [exec_eq, runTransport_runs h hc]

theorem exec_stalls {i : Instr} {s : State} (h : accepts i s = true) (hc : s.device.completes (calls i) = false) :
    exec i s = .fault .deviceStall := by
  rw [exec_eq, runTransport_stalls h hc]

theorem exec_refuses {i : Instr} {s : State} (h : accepts i s = false) : exec i s = .next (refuse s) := by
  rw [exec_eq, runTransport_refuses h]

/-- What a step can do (R63): it waits, or with the oldest request taken it is refused, makes the update of an
instruction, or stages a response image. ENCODE's update covers a command payload that is no row (log 13). -/
theorem step_next {s t : State} (h : step s = .next t) :
    t = s ∨ ∃ rest, t = refuse (s.take rest) ∨ (∃ i, t = (s.take rest).update (updateOf i (s.take rest))) ∨
      ∃ b, t = stage b (s.take rest) := by
  unfold step at h
  cases hp : s.port with
  | nil =>
    simp only [hp, Host.Outcome.next.injEq] at h
    exact .inl h.symm
  | cons q rest =>
    refine .inr ⟨rest, ?_⟩
    cases hd : decode q with
    | some i =>
      rcases exec_next (i := i) (by simpa [hp, hd] using h) with ⟨-, ht⟩ | ⟨-, ht⟩
      · exact .inr (.inl ⟨i, ht⟩)
      · exact .inl ht
    | none =>
      rcases runUnlisted_next (q := q) (by simpa [hp, hd] using h) with ht | ⟨p, -, ht⟩ | ⟨r, -, ht⟩
      · exact .inl ht
      · exact .inr (.inl ⟨.encode p, ht.trans (update_complete _ _).symm⟩)
      · exact .inr (.inr ⟨r, ht⟩)

end Sys2Proof.Machine

/-! Which registers an update writes: the ownership table of 10_state.md section 7, and the statements that follow
from it. -/

namespace Sys2Proof.Machine

/-! ### The registers after an update -/

section
variable (s : State) (u : Update)

@[simp] theorem update_cfg : (s.update u).cfg = s.cfg := rfl
@[simp] theorem update_port : (s.update u).port = s.port := rfl
@[simp] theorem update_device : (s.update u).device = u.device := rfl
@[simp] theorem update_present : (s.update u).present = u.present := rfl
@[simp] theorem update_tgid : (s.update u).tgid = u.tgid := rfl
@[simp] theorem update_uid : (s.update u).uid = u.uid := rfl
@[simp] theorem update_running : (s.update u).running = u.running.getD s.running := rfl
@[simp] theorem update_sstate : (s.update u).sstate = u.sstate.getD s.sstate := rfl
@[simp] theorem update_authStatus : (s.update u).authStatus = u.authStatus.getD s.authStatus := rfl
@[simp] theorem update_diag : (s.update u).diag = s.diag ++ u.diag := rfl
@[simp] theorem update_trace : (s.update u).trace = s.trace ++ u.trace := rfl
@[simp] theorem update_hpc : (s.update u).hpc = s.hpc + u.hpc := rfl
@[simp] theorem update_result : (s.update u).result = u.result.getD s.result := rfl
@[simp] theorem update_refused : (s.update u).refused = s.refused := rfl

end

/-- The value the writes `ws` leave in the flag `f`, if one of them writes it. -/
def flagWrite (f : Flag) : List (Flag × Bool) → Option Bool
  | [] => none
  | (g, v) :: ws => (flagWrite f ws).or (if g = f then some v else none)

theorem getLsbD_setFlags (f : Flag) (ws : List (Flag × Bool)) (st : BitVec 8) :
    (setFlags ws st).getLsbD f.bit = (flagWrite f ws).getD (st.getLsbD f.bit) := by
  induction ws generalizing st with
  | nil => rfl
  | cons w ws ih =>
    have hstep : (setFlags (w :: ws) st).getLsbD f.bit =
        (flagWrite f ws).getD (if f.bit = w.1.bit then w.2 else st.getLsbD f.bit) := by
      rw [← getLsbD_setFlag]
      exact ih _
    rw [hstep, flagWrite]
    cases flagWrite f ws with
    | some v => rfl
    | none => by_cases h : w.1 = f <;> simp [h, Flag.bit_inj, eq_comm (a := f)]

@[simp] theorem flag_update (s : State) (u : Update) (f : Flag) :
    (s.update u).flag f = (flagWrite f u.flags).getD (s.flag f) := getLsbD_setFlags f u.flags s.status

/-! ### Who writes what (R37) -/

section
variable {i : Instr} (s : State)

theorem updateOf_session (hf : i ≠ .findTarget) (hn : i ≠ .sessionNew) :
    (updateOf i s).present = s.present ∧ (updateOf i s).tgid = s.tgid ∧ (updateOf i s).uid = s.uid := by
  cases i with
  | findTarget => exact absurd rfl hf
  | sessionNew => exact absurd rfl hn
  | _ => exact ⟨rfl, rfl, rfl⟩

theorem updateOf_running (hw : i ≠ .wake) : (updateOf i s).running = none := by
  cases i with
  | wake => exact absurd rfl hw
  | _ => rfl

theorem updateOf_sstate (hw : i ≠ .wake) (hf : i ≠ .findTarget) : (updateOf i s).sstate = none := by
  cases i with
  | wake => exact absurd rfl hw
  | findTarget => exact absurd rfl hf
  | _ => rfl

theorem updateOf_authStatus (ha : ∀ a, i ≠ .auth a) : (updateOf i s).authStatus = none := by
  cases i with
  | auth a => exact absurd rfl (ha a)
  | _ => rfl

theorem updateOf_ackOk (he : ∀ e, i ≠ .expect e) (hw : i ≠ .wake) (hf : i ≠ .findTarget) (ha : ∀ a, i ≠ .auth a) :
    flagWrite .ackOk (updateOf i s).flags = none := by
  cases i with
  | expect e => exact absurd rfl (he e)
  | wake => exact absurd rfl hw
  | findTarget => exact absurd rfl hf
  | auth a => exact absurd rfl (ha a)
  | _ => rfl

theorem updateOf_confOk (hw : i ≠ .wake) : flagWrite .confOk (updateOf i s).flags = none := by
  cases i with
  | wake => exact absurd rfl hw
  | _ => rfl

theorem updateOf_decodeFlags (hr : ∀ r, i ≠ .decode r) :
    flagWrite .leadOk (updateOf i s).flags = none ∧ flagWrite .lcsOk (updateOf i s).flags = none ∧
      flagWrite .dcsOk (updateOf i s).flags = none ∧ flagWrite .short (updateOf i s).flags = none := by
  cases i with
  | decode r => exact absurd rfl (hr r)
  | _ => exact ⟨rfl, rfl, rfl, rfl⟩

theorem updateOf_authOk (ha : ∀ a, i ≠ .auth a) : flagWrite .authOk (updateOf i s).flags = none := by
  cases i with
  | auth a => exact absurd rfl (ha a)
  | _ => rfl

theorem updateOf_found (hf : i ≠ .findTarget) : flagWrite .found (updateOf i s).flags = none := by
  cases i with
  | findTarget => exact absurd rfl hf
  | _ => rfl

theorem updateOf_trace (hi : isHostOperation i = true) (he : ∀ e, i ≠ .expect e) (hw : i ≠ .wake)
    (hf : i ≠ .findTarget) (ha : ∀ a, i ≠ .auth a) : (updateOf i s).trace = [] := by
  cases i with
  | expect e => exact absurd rfl (he e)
  | wake => exact absurd rfl hw
  | findTarget => exact absurd rfl hf
  | auth a => exact absurd rfl (ha a)
  | wireSamConfiguration mode => cases hi
  | wireInListPassiveTarget maxTg brTy => cases hi
  | _ => rfl

theorem updateOf_diag (hr : ∀ r, i ≠ .decode r) (he : ∀ e, i ≠ .expect e) (hw : i ≠ .wake) (hf : i ≠ .findTarget)
    (ha : ∀ a, i ≠ .auth a) : (updateOf i s).diag = [] := by
  cases i with
  | decode r => exact absurd rfl (hr r)
  | expect e => exact absurd rfl (he e)
  | wake => exact absurd rfl hw
  | findTarget => exact absurd rfl hf
  | auth a => exact absurd rfl (ha a)
  | _ => rfl

variable (i)

theorem updateOf_hpc : (updateOf i s).hpc = if isHostOperation i then 1 else 0 := by
  cases i <;> rfl

theorem resultTyped_updateOf (r : Result) : ResultTyped i ((updateOf i s).result.getD r) := by
  cases i with
  | encode p => exact ⟨_, rfl⟩
  | decode b => exact ⟨_, rfl⟩
  | lcs len => exact ⟨_, rfl⟩
  | dcs p => exact ⟨_, rfl⟩
  | expect e => exact ⟨_, rfl⟩
  | wake => exact ⟨_, rfl⟩
  | findTarget => exact ⟨_, rfl⟩
  | sessionNew => rfl
  | auth a => exact ⟨_, rfl⟩
  | wireInDataExchangeAuthA tg a key uid => exact ⟨_, rfl⟩
  | wireInDataExchangeRead16 tg a => exact ⟨_, rfl⟩
  | _ => trivial

end

/-- The wire rows beside the two InDataExchange payloads are sent, or are staged and never refused. -/
theorem updateOf_of_not_hostOperation {i : Instr} (hi : isHostOperation i = false) (s : State) :
    (∃ p, encode i = .command p ∧ updateOf i s = .send p s) ∨
      ∃ b, encode i = .reply b ∧ accepts i s = true ∧ updateOf i s = .stage b s := by
  cases i with
  | wireSamConfiguration mode => exact .inl ⟨_, rfl, rfl⟩
  | wireInListPassiveTarget maxTg brTy => exact .inl ⟨_, rfl, rfl⟩
  | wireAck => exact .inr ⟨_, rfl, rfl, rfl⟩
  | wireWakeConf => exact .inr ⟨_, rfl, rfl, rfl⟩
  | wireInListPassiveTargetResp nbTg tg s0 s1 sel idLen uid => exact .inr ⟨_, rfl, rfl, rfl⟩
  | wireInDataExchangeResp st => exact .inr ⟨_, rfl, rfl, rfl⟩
  | _ => cases hi

theorem update_wake_outcome (s : State) :
    ((s.update (wakeUpdate s)).result = .bool true ∧ (s.update (wakeUpdate s)).sstate = SState.idle) ∨
      ((s.update (wakeUpdate s)).result = .bool false ∧ (s.update (wakeUpdate s)).sstate = SState.asleep) := by
  simp only [update_result, update_sstate, wakeUpdate, Update.complete, Option.getD_some]
  cases decide (s.device.answer 7 = ackImage) && decide ((s.device.afterCalls 0 1).answer 9 = wakeConfImage) with
  | true => exact .inl ⟨rfl, rfl⟩
  | false => exact .inr ⟨rfl, rfl⟩

theorem update_findTarget_outcome (s : State) :
    ((s.update (findTargetUpdate s)).result = .bool true ∧
        (s.update (findTargetUpdate s)).sstate = SState.targetFound) ∨
      ((s.update (findTargetUpdate s)).result = .bool false ∧
        (s.update (findTargetUpdate s)).sstate = SState.noTarget) := by
  simp only [update_result, update_sstate, findTargetUpdate, Update.complete, Option.getD_some]
  cases presence s.cfg ((s.device.afterCalls 0 1).answer s.cfg.ilptReadLen) with
  | true => exact .inl ⟨rfl, rfl⟩
  | false => exact .inr ⟨rfl, rfl⟩

/-! ### The statements -/

/-- Settles O14: a refused operation keeps every register of the table, and an update writes only what its row owns. -/
theorem writeOwnership : Obligations.WriteOwnership := by
  intro i s t hi h
  rcases exec_next h with ⟨-, rfl⟩ | ⟨-, rfl⟩
  case inr =>
    exact ⟨fun _ _ => ⟨rfl, rfl, rfl⟩, fun _ => rfl, fun _ _ => rfl, fun _ _ _ _ => ⟨rfl, rfl⟩, fun _ => rfl,
      fun _ => ⟨rfl, rfl, rfl, rfl⟩, fun _ => ⟨rfl, rfl⟩, fun _ => rfl, fun _ _ _ _ _ => rfl, List.prefix_rfl,
      List.prefix_rfl, .inl rfl⟩
  case inl =>
    refine ⟨updateOf_session s, fun hw => ?running, fun hw hf => ?sstate, fun he hw hf ha => ⟨?ackOk, ?trace⟩,
      fun hw => ?confOk, fun hr => ?decodeFlags, fun ha => ⟨?authOk, ?authStatus⟩, fun hf => ?found,
      fun hr he hw hf ha => ?diag, List.prefix_append _ _, List.prefix_append _ _,
      .inr ⟨resultTyped_updateOf i s s.result, rfl⟩⟩
    case running => simp [updateOf_running s hw]
    case sstate => simp [updateOf_sstate s hw hf]
    case ackOk => simp [updateOf_ackOk s he hw hf ha]
    case trace => simp [updateOf_trace s hi he hw hf ha]
    case confOk => simp [updateOf_confOk s hw]
    case decodeFlags => simp [updateOf_decodeFlags s hr]
    case authOk => simp [updateOf_authOk s ha]
    case authStatus => simp [updateOf_authStatus s ha]
    case found => simp [updateOf_found s hf]
    case diag => simp [updateOf_diag s hr he hw hf ha]

/-- Settles O15: a row that is sent is refused or grows `TRACE`, and a row that is staged changes the device alone. -/
theorem sentAndStagedRowsKeepSession : Obligations.SentAndStagedRowsKeepSession := by
  intro i s t hi h
  rcases updateOf_of_not_hostOperation hi s with ⟨p, hp, hu⟩ | ⟨b, -, hok, hu⟩
  case inl =>
    have hreply : ¬∃ r, encode i = .reply r := by simp [hp]
    rcases exec_next h with ⟨-, rfl⟩ | ⟨-, rfl⟩
    · rw [hu, update_send]
      exact ⟨rfl, rfl, rfl, rfl, rfl, rfl, rfl, rfl, rfl, rfl, rfl, List.prefix_append _ _, fun hr => absurd hr hreply⟩
    · exact ⟨rfl, rfl, rfl, rfl, rfl, rfl, rfl, rfl, rfl, rfl, rfl, List.prefix_rfl, fun hr => absurd hr hreply⟩
  case inr =>
    rcases exec_next h with ⟨-, rfl⟩ | ⟨hno, -⟩
    · rw [hu, update_stage]
      exact ⟨rfl, rfl, rfl, rfl, rfl, rfl, rfl, rfl, rfl, rfl, rfl, List.prefix_rfl, fun _ => ⟨rfl, rfl, rfl⟩⟩
    · rw [hok] at hno
      cases hno

/-- Settles O17: a refusal adds 1, and so does the update of a host operation (`updateOf_hpc`). -/
theorem hostOperationAdvancesHpc : Obligations.HostOperationAdvancesHpc := by
  intro i s t hi h
  rcases exec_next h with ⟨-, rfl⟩ | ⟨-, rfl⟩
  · rw [update_hpc, updateOf_hpc, if_pos hi]
  · rfl

/-- Settles O16: every way a step can go only appends to the logs and never clears the mark. -/
theorem logsGrowAndRefusedSticks : Obligations.LogsGrowAndRefusedSticks := by
  intro s t h
  rcases step_next h with rfl | ⟨rest, rfl | ⟨i, rfl⟩ | ⟨b, rfl⟩⟩
  · exact ⟨List.prefix_rfl, List.prefix_rfl, id⟩
  · exact ⟨List.prefix_rfl, List.prefix_rfl, fun _ => rfl⟩
  · exact ⟨List.prefix_append _ _, List.prefix_append _ _, id⟩
  · exact ⟨List.prefix_rfl, List.prefix_rfl, id⟩

/-- Settles O18: an update has no field for the configuration, and no other way a step can go writes it. -/
theorem stepKeepsConfiguration : Obligations.StepKeepsConfiguration := by
  intro s t h
  rcases step_next h with rfl | ⟨rest, rfl | ⟨i, rfl⟩ | ⟨b, rfl⟩⟩
  · rfl
  · rfl
  · rfl
  · rfl

/-- Settles O12: outside WAKE and FIND_TARGET no update writes `SSTATE`, and the two write it with their result. -/
theorem sstateTransitions : Obligations.SStateTransitions := by
  intro i s t h
  rcases exec_next h with ⟨-, rfl⟩ | ⟨-, rfl⟩
  case inr => exact ⟨fun _ _ => rfl, fun _ => .inl rfl, fun _ => .inl rfl⟩
  case inl =>
    refine ⟨fun hw hf => ?keeps, ?wake, ?findTarget⟩
    case keeps => simp [updateOf_sstate s hw hf]
    case wake =>
      rintro rfl
      exact .inr (update_wake_outcome s)
    case findTarget =>
      rintro rfl
      exact .inr (update_findTarget_outcome s)

/-- Settles O13: only WAKE's update writes `RUNNING`, and it writes 1 only when both verdicts are true. -/
theorem runningSetOnlyByMatchedWake : Obligations.RunningSetOnlyByMatchedWake := by
  intro i s t h hs ht
  rcases exec_next h with ⟨-, rfl⟩ | ⟨-, rfl⟩
  case inr => simp [hs] at ht
  case inl =>
    have hw : i = .wake := by
      by_contra hw
      simp [updateOf_running s hw, hs] at ht
    subst hw
    have hok : s.device.answer 7 = ackImage ∧ (s.device.afterCalls 0 1).answer 9 = wakeConfImage := by
      by_contra hok
      cases hclear : s.cfg.wakeFailClearsRunning <;> simp [updateOf, wakeUpdate, hok, hs, hclear] at ht
    exact ⟨rfl, hok⟩

/-! ### What is appended to the logs (R51, R201) -/

theorem mem_trace_updateOf {i : Instr} {s : State} {b : List Byte} (h : Event.write b ∈ (updateOf i s).trace) :
    (i = .wake ∧ (b = s.cfg.primeBytes ∨ b = encodeFrame s.cfg.samPayload)) ∨
    (i = .findTarget ∧ b = encodeFrame s.cfg.ilptPayload) ∨
    (∃ a, i = .auth a ∧ b = encodeFrame (authCommand a s)) ∨
    (∃ m, i = .wireSamConfiguration m ∧ b = encodeFrame (samPayload m)) ∨
    ∃ x y, i = .wireInListPassiveTarget x y ∧ b = encodeFrame (ilptPayload x y) := by
  cases i with
  | expect e => cases e <;> simp [updateOf, expectUpdate] at h
  | wake => exact .inl ⟨rfl, by simpa [updateOf, wakeUpdate] using h⟩
  | findTarget => exact .inr (.inl ⟨rfl, by simpa [updateOf, findTargetUpdate] using h⟩)
  | auth a => exact .inr (.inr (.inl ⟨a, rfl, by simpa [updateOf, authUpdate] using h⟩))
  | wireSamConfiguration m => exact .inr (.inr (.inr (.inl ⟨m, rfl, by simpa [updateOf, Update.send] using h⟩)))
  | wireInListPassiveTarget x y =>
    exact .inr (.inr (.inr (.inr ⟨x, y, rfl, by simpa [updateOf, Update.send] using h⟩)))
  | _ => exact absurd h List.not_mem_nil

theorem mem_decodeDiags {c : Config} {r : List Byte} {x : Diag} (h : x ∈ decodeDiags c r) :
    ∃ m, x = .malformedFrame m := by
  simp only [decodeDiags, List.mem_append, List.mem_ite_nil_left, List.mem_ite_nil_right, List.mem_singleton] at h
  obtain ((⟨-, rfl⟩ | ⟨-, rfl⟩) | ⟨-, rfl⟩) | ⟨-, rfl⟩ := h
  · exact ⟨_, rfl⟩
  · exact ⟨_, rfl⟩
  · exact ⟨_, rfl⟩
  · exact ⟨_, rfl⟩

theorem mayRaise_of_mem_mismatchDiags {i : Instr} {e b : List Byte} {x : Diag} (h : x ∈ mismatchDiags e b)
    (hi : (∃ e, i = .expect e) ∨ i = .wake ∨ i = .findTarget ∨ ∃ a, i = .auth a) : MayRaise i x := by
  obtain ⟨j, rfl⟩ := mem_mismatchDiags h
  exact hi

theorem mayRaise_of_mem_diag {i : Instr} {s : State} {x : Diag} (h : x ∈ (updateOf i s).diag) : MayRaise i x := by
  cases i with
  | decode r =>
    obtain ⟨m, rfl⟩ := mem_decodeDiags h
    exact ⟨r, rfl⟩
  | expect e => exact mayRaise_of_mem_mismatchDiags h (.inl ⟨e, rfl⟩)
  | wake =>
    rcases List.mem_append.mp h with h | h
    · exact mayRaise_of_mem_mismatchDiags h (.inr (.inl rfl))
    · exact mayRaise_of_mem_mismatchDiags h (.inr (.inl rfl))
  | findTarget => exact mayRaise_of_mem_mismatchDiags h (.inr (.inr (.inl rfl)))
  | auth a =>
    rcases List.mem_append.mp h with h | h
    · exact mayRaise_of_mem_mismatchDiags h (.inr (.inr (.inr ⟨a, rfl⟩)))
    · rw [List.mem_ite_nil_left, List.mem_singleton] at h
      obtain ⟨-, rfl⟩ := h
      exact ⟨a, rfl⟩
  | _ => exact absurd h List.not_mem_nil

/-- Settles O45: a refused operation raises nothing, and an update raises what its instruction may. -/
theorem raiseSites : Obligations.RaiseSites := by
  intro i s t h
  rcases exec_next h with ⟨-, rfl⟩ | ⟨-, rfl⟩
  · exact ⟨_, rfl, fun x hx => mayRaise_of_mem_diag hx⟩
  · exact ⟨[], by simp, by simp⟩

/-- Settles O44: a refused operation and a request that is no row send nothing, and an update sends the frames of
`mem_trace_updateOf`. -/
theorem cardIsReachedOnlyByAuth : Obligations.CardIsReachedOnlyByAuth := by
  refine ⟨fun i s t h => ?_, fun s t q rest hq hd h => ?_⟩
  · rcases exec_next h with ⟨-, rfl⟩ | ⟨-, rfl⟩
    · exact ⟨_, rfl, fun b hb => mem_trace_updateOf hb⟩
    · exact ⟨[], by simp, by simp⟩
  · rcases runUnlisted_next (q := q) (s := s.take rest) (by simpa [step, hq, hd] using h) with
      rfl | ⟨p, -, rfl⟩ | ⟨r, -, rfl⟩
    · rfl
    · rfl
    · rfl

end Sys2Proof.Machine

/-! The machine's invariant (`GoodState`): R25, R27, R28, R54, R55, R201. -/

namespace Sys2Proof.Machine

/-! ### Each part of the invariant is kept by an update -/

theorem sessionConsistent_update {s : State} (h : SessionConsistent s) (i : Instr) :
    SessionConsistent (s.update (updateOf i s)) := by
  cases i with
  | findTarget =>
    unfold SessionConsistent
    simp only [updateOf, findTargetUpdate, update_present, update_tgid, update_uid, update_cfg]
    cases presence s.cfg ((s.device.afterCalls 0 1).answer s.cfg.ilptReadLen) <;> simp
  | sessionNew => exact ⟨fun _ => ⟨rfl, rfl⟩, nofun⟩
  | _ => exact h

theorem sstateVisible_update {s : State} (h : SStateVisible s) (i : Instr) :
    SStateVisible (s.update (updateOf i s)) := by
  cases i with
  | wake =>
    rcases update_wake_outcome s with ⟨-, h⟩ | ⟨-, h⟩
    · exact .inr (.inl h)
    · exact .inl h
  | findTarget =>
    rcases update_findTarget_outcome s with ⟨-, h⟩ | ⟨-, h⟩
    · exact .inr (.inr (.inl h))
    · exact .inr (.inr (.inr h))
  | _ => exact h

/-- An update that writes none of the registers `StatusConsistent` speaks of keeps it. -/
theorem statusConsistent_update_of_kept {s : State} {u : Update} (h : StatusConsistent s)
    (hpresent : u.present = s.present) (hrunning : u.running = none) (hsstate : u.sstate = none)
    (hfound : flagWrite .found u.flags = none) (hauthOk : flagWrite .authOk u.flags = none)
    (hauthStatus : u.authStatus = none) : StatusConsistent (s.update u) := by
  simpa [StatusConsistent, hpresent, hrunning, hsstate, hfound, hauthOk, hauthStatus] using h

theorem statusConsistent_update_wake {s : State} (h : StatusConsistent s) :
    StatusConsistent (s.update (wakeUpdate s)) := by
  obtain ⟨hpresent, hauth, -, -, -⟩ := h
  simp only [StatusConsistent, flag_update, update_present, update_authStatus, update_running, update_sstate,
    wakeUpdate, Update.complete, Update.keep, flagWrite, Option.getD_some]
  cases decide (s.device.answer 7 = ackImage) && decide ((s.device.afterCalls 0 1).answer 9 = wakeConfImage) with
  | true => exact ⟨hpresent, hauth, fun _ => rfl, nofun, nofun⟩
  | false => exact ⟨hpresent, hauth, nofun, nofun, nofun⟩

theorem statusConsistent_update_findTarget {s : State} (h : StatusConsistent s) :
    StatusConsistent (s.update (findTargetUpdate s)) := by
  obtain ⟨-, hauth, -, -, -⟩ := h
  simp only [StatusConsistent, flag_update, update_present, update_authStatus, update_running, update_sstate,
    findTargetUpdate, Update.complete, Update.keep, flagWrite, Option.getD_some]
  cases presence s.cfg ((s.device.afterCalls 0 1).answer s.cfg.ilptReadLen) with
  | true => exact ⟨fun _ => rfl, hauth, nofun, fun _ => rfl, nofun⟩
  | false => exact ⟨nofun, hauth, nofun, nofun, fun _ => ⟨rfl, rfl⟩⟩

theorem statusConsistent_update_auth {s : State} (h : StatusConsistent s) (a : Byte) :
    StatusConsistent (s.update (authUpdate a s)) := by
  obtain ⟨hpresent, -, hidle, hfound, hnone⟩ := h
  simp only [StatusConsistent, flag_update, update_present, update_authStatus, update_running, update_sstate,
    authUpdate, Update.complete, Update.keep, flagWrite, Option.getD_some]
  exact ⟨hpresent, of_decide_eq_true, hidle, hfound, hnone⟩

theorem statusConsistent_update {s : State} (h : StatusConsistent s) (i : Instr) :
    StatusConsistent (s.update (updateOf i s)) := by
  cases i with
  | wake => exact statusConsistent_update_wake h
  | findTarget => exact statusConsistent_update_findTarget h
  | auth a => exact statusConsistent_update_auth h a
  | sessionNew =>
    obtain ⟨-, hauth, hidle, hfound, hnone⟩ := h
    exact ⟨nofun, hauth, hidle, hfound, fun hn => ⟨(hnone hn).1, rfl⟩⟩
  | _ => exact statusConsistent_update_of_kept h rfl rfl rfl rfl rfl rfl

theorem traceOk_updateOf (i : Instr) (s : State) : traceOk (updateOf i s).trace = true := by
  cases i with
  | expect e => cases e <;> simp [updateOf, expectUpdate, traceOk]
  | wake => simp [updateOf, wakeUpdate, traceOk]
  | findTarget => simp [updateOf, findTargetUpdate, traceOk]
  | auth a => simp [updateOf, authUpdate, traceOk]
  | _ => rfl

/-- What an instruction may raise is what the FCB raises. -/
theorem MayRaise.raised {i : Instr} {x : Diag} (h : MayRaise i x) : raisedByFcb x = true := by
  cases x with
  | transportMismatch j b => rfl
  | malformedFrame m => rfl
  | authFailure a st => rfl
  | oversizeInput => cases i <;> exact h.elim
  | illegalAddress => cases i <;> exact h.elim

theorem goodState_update {s : State} (h : GoodState s) (i : Instr) : GoodState (s.update (updateOf i s)) := by
  obtain ⟨hsession, hsstate, hstatus, htrace, hdiag⟩ := h
  refine ⟨sessionConsistent_update hsession i, sstateVisible_update hsstate i, statusConsistent_update hstatus i,
    traceOk_append _ _ htrace (traceOk_updateOf i s), ?_⟩
  rw [update_diag, List.all_append, hdiag, Bool.true_and, List.all_eq_true]
  exact fun x hx => (mayRaise_of_mem_diag hx).raised

/-- Settles O10: taking a request, a refusal and a staged answer touch no register the invariant speaks of. -/
theorem stepKeepsInvariant : Obligations.StepKeepsInvariant := by
  intro s t hs h
  rcases step_next h with rfl | ⟨rest, rfl | ⟨i, rfl⟩ | ⟨b, rfl⟩⟩
  · exact hs
  · exact hs
  · have htake : GoodState (s.take rest) := hs
    exact goodState_update htake i
  · exact hs

/-- Settles O9: after reset nothing is recorded, and no flag of `STATUS` is set. -/
theorem resetMeetsInvariant : Obligations.ResetMeetsInvariant := by
  intro cfg port device
  refine ⟨⟨fun _ => ⟨rfl, rfl⟩, nofun⟩, .inl rfl, ⟨nofun, fun _ => rfl, nofun, nofun, nofun⟩, rfl, rfl⟩

/-- A discovery answered by the image of R80 with one target and the zero UID. -/
def zeroUidDiscovery : State :=
  State.resetWith Config.decided []
    { Device.fresh with
      staged := [ackImage, responseImage (ilptRespPayload 0x01 0x01 0x00 0x04 0x08 0x04 zeroUid)] }

/-- Settles O11: an update keeps the session consistent, and the run from `zeroUidDiscovery` finds a card whose UID
is zero. -/
theorem operationKeepsSessionConsistent : Obligations.OperationKeepsSessionConsistent := by
  refine ⟨fun i s t hcfg hs h => ?_, zeroUidDiscovery, _, rfl, by decide, rfl, by decide, by decide⟩
  rcases exec_next h with ⟨-, rfl⟩ | ⟨-, rfl⟩
  · obtain ⟨habsent, hpresent⟩ := sessionConsistent_update hs i
    exact ⟨habsent, fun hp => (hpresent hp).trans hcfg⟩
  · exact ⟨hs.1, fun hp => (hs.2 hp).trans hcfg⟩

end Sys2Proof.Machine

/-! No operation reads an output (R26, R28, R31 to R35) or what AUTH reports (R174). -/

namespace Sys2Proof.Machine

/-! ### An update reads the configuration, the device and the session alone -/

theorem updateOf_blankOutputs (i : Instr) (s : State) : updateOf i s.blankOutputs = updateOf i s := by
  cases i <;> rfl

theorem accepts_blankOutputs (i : Instr) (s : State) : accepts i s.blankOutputs = accepts i s := by
  cases i <;> rfl

/-- Two runs of one instruction from states that differ in outputs only are refused, stall, or make one update. -/
theorem sameOutcome_exec {agree : State → State → Prop} {i : Instr} {s t : State}
    (h : s.blankOutputs = t.blankOutputs) (hu : agree (s.update (updateOf i s)) (t.update (updateOf i s)))
    (hr : agree (refuse s) (refuse t)) : SameOutcome agree (exec i s) (exec i t) := by
  have hupdate : updateOf i t = updateOf i s := by rw [← updateOf_blankOutputs, ← h, updateOf_blankOutputs]
  have haccepts : accepts i t = accepts i s := by rw [← accepts_blankOutputs, ← h, accepts_blankOutputs]
  have hdevice : s.blankOutputs.device = t.blankOutputs.device := by rw [h]
  rw [exec_eq, exec_eq, hupdate, haccepts]
  exact sameOutcome_runTransport hdevice hu hr

/-- A register that an update writes or keeps is kept by both runs or gets one value. -/
theorem writtenAlike_getD {α : Type} {reg : State → α} {s t s' t' : State} (o : Option α)
    (hs : reg s' = o.getD (reg s)) (ht : reg t' = o.getD (reg t)) : WrittenAlike reg s t s' t' := by
  cases o with
  | none => exact .inl ⟨hs, ht⟩
  | some v => exact .inr (hs.trans ht.symm)

theorem writtenAlike_flag_update (f : Flag) (s t : State) (u : Update) :
    WrittenAlike (State.flag · f) s t (s.update u) (t.update u) :=
  writtenAlike_getD _ (flag_update s u f) (flag_update t u f)

theorem blankOutputs_update (s : State) (u : Update) :
    (s.update u).blankOutputs = (s.blankOutputs.update u).blankOutputs := rfl

/-- Blanking `AUTH_OK` before the flags are written changes no other flag. -/
theorem blankAuthReport_update (s : State) (u : Update) :
    (s.update u).blankAuthReport = (s.blankAuthReport.update u).blankAuthReport := by
  have hstatus : setFlag .authOk false (setFlags u.flags s.status) =
      setFlag .authOk false (setFlags u.flags (setFlag .authOk false s.status)) := by
    apply status_ext
    intro f
    simp only [getLsbD_setFlag, getLsbD_setFlags]
    by_cases hf : f.bit = Flag.authOk.bit <;> simp [hf]
  simp [State.blankAuthReport, State.update, hstatus]

/-- Settles O21: both runs make one update, or both are refused. -/
theorem outputsAreNeverRead : Obligations.OutputsAreNeverRead := by
  intro i s t h
  refine sameOutcome_exec h ?update ?refused
  case update =>
    refine ⟨?_, ⟨_, rfl, rfl⟩, ⟨_, rfl, rfl⟩, ⟨_, rfl, rfl⟩, writtenAlike_getD _ rfl rfl, writtenAlike_getD _ rfl rfl,
      writtenAlike_getD _ rfl rfl, writtenAlike_getD _ rfl rfl, .inl ⟨rfl, rfl⟩,
      fun f => writtenAlike_flag_update f s t _⟩
    rw [blankOutputs_update, h, ← blankOutputs_update]
  case refused =>
    exact ⟨h, ⟨[], by simp, by simp⟩, ⟨[], by simp, by simp⟩, ⟨1, rfl, rfl⟩, .inl ⟨rfl, rfl⟩, .inl ⟨rfl, rfl⟩,
      .inl ⟨rfl, rfl⟩, .inl ⟨rfl, rfl⟩, .inr rfl, fun _ => .inl ⟨rfl, rfl⟩⟩

/-- Settles O20: what AUTH reports are outputs, so both runs make one update, or both are refused. -/
theorem authReportIsNotRead : Obligations.AuthReportIsNotRead := by
  intro i s t h
  have houtputs : s.blankAuthReport.blankOutputs = t.blankAuthReport.blankOutputs := by rw [h]
  refine sameOutcome_exec houtputs ?update ?refused
  case update =>
    refine ⟨?_, ⟨_, rfl, rfl⟩, writtenAlike_getD _ rfl rfl, writtenAlike_getD _ rfl rfl,
      writtenAlike_flag_update .authOk s t _⟩
    rw [blankAuthReport_update, h, ← blankAuthReport_update]
  case refused =>
    exact ⟨congrArg refuse h, ⟨[], by simp, by simp⟩, .inl ⟨rfl, rfl⟩, .inl ⟨rfl, rfl⟩, .inl ⟨rfl, rfl⟩⟩

end Sys2Proof.Machine

/-! The decoder and the encoder of both layers (30_encoding.md), and the step around them. -/

namespace Sys2Proof.Machine

/-! ### Count bytes -/

/-- A length that fits two bytes is the value of its count bytes (R88). -/
theorem length_eq_count16 {r : List Byte} (h : r.length ≤ 65535) :
    r.length = (BitVec.ofNat 8 (r.length / 256)).toNat * 256 + (BitVec.ofNat 8 r.length).toNat := by
  rw [BitVec.toNat_ofNat, BitVec.toNat_ofNat]
  omega

/-- Two bytes are the count bytes of the length they count. -/
theorem count_bytes_eq {n : Nat} {hi lo : Byte} (h : n = hi.toNat * 256 + lo.toNat) :
    BitVec.ofNat 8 (n / 256) = hi ∧ BitVec.ofNat 8 n = lo := by
  have hhi := hi.isLt
  have hlo := lo.isLt
  constructor
  · apply BitVec.eq_of_toNat_eq
    rw [BitVec.toNat_ofNat]
    omega
  · apply BitVec.eq_of_toNat_eq
    rw [BitVec.toNat_ofNat]
    omega

/-! ### The operand forms accept exactly the encoded operands (R86, R88) -/

theorem noOperand_eq_some {x i : Instr} {ops : List Byte} (h : noOperand x ops = some i) : i = x ∧ ops = [] := by
  cases ops with
  | nil => exact ⟨(Option.some.inj h).symm, rfl⟩
  | cons b bs => cases h

theorem byteOperand_eq_some {f : Byte → Instr} {i : Instr} {ops : List Byte} (h : byteOperand f ops = some i) :
    ∃ b, i = f b ∧ ops = [b] := by
  match ops, h with
  | [b], h => exact ⟨b, (Option.some.inj h).symm, rfl⟩

theorem countedOperand_eq_some {f : List Byte → Instr} {i : Instr} {ops : List Byte}
    (h : countedOperand f ops = some i) :
    ∃ p, p.length ≤ 255 ∧ i = f p ∧ ops = BitVec.ofNat 8 p.length :: p := by
  match ops, h with
  | l :: p, h =>
    simp only [countedOperand, Option.ite_none_right_eq_some, Option.some.injEq] at h
    obtain ⟨hlen, hi⟩ := h
    have hl := l.isLt
    exact ⟨p, by omega, hi.symm, congrArg (· :: p) (lenByte_of_length hlen).symm⟩

theorem counted16Operand_eq_some {f : List Byte → Instr} {i : Instr} {ops : List Byte}
    (h : counted16Operand f ops = some i) :
    ∃ r, r.length ≤ 65535 ∧ i = f r ∧
      ops = BitVec.ofNat 8 (r.length / 256) :: BitVec.ofNat 8 r.length :: r := by
  match ops, h with
  | hi :: lo :: r, h =>
    simp only [counted16Operand, Option.ite_none_right_eq_some, Option.some.injEq] at h
    obtain ⟨hlen, hinstr⟩ := h
    rw [count16] at hlen
    have hhi := hi.isLt
    have hlo := lo.isLt
    obtain ⟨hhi', hlo'⟩ := count_bytes_eq hlen
    exact ⟨r, by omega, hinstr.symm, by rw [hhi', hlo']⟩

/-! ### Decoding inverts encoding, layer by layer -/

theorem encode_of_decodeHost {c : List Byte} {i : Instr} (h : decodeHost c = some i) :
    i.wf = true ∧ encode i = .host c := by
  cases c with
  | nil => cases h
  | cons op ops =>
    simp only [decodeHost] at h
    split_ifs at h with h1 h2 h3 h4 h5 h6 h7 h8 h9
    · obtain ⟨p, hp, rfl, rfl⟩ := countedOperand_eq_some h
      exact ⟨decide_eq_true hp, by rw [h1]; rfl⟩
    · obtain ⟨r, hr, rfl, rfl⟩ := counted16Operand_eq_some h
      exact ⟨decide_eq_true hr, by rw [h2]; rfl⟩
    · obtain ⟨l, rfl, rfl⟩ := byteOperand_eq_some h
      exact ⟨rfl, by rw [h3]; rfl⟩
    · obtain ⟨p, hp, rfl, rfl⟩ := countedOperand_eq_some h
      exact ⟨decide_eq_true hp, by rw [h4]; rfl⟩
    · obtain ⟨e, he, rfl, rfl⟩ := countedOperand_eq_some h
      exact ⟨decide_eq_true he, by rw [h5]; rfl⟩
    · obtain ⟨rfl, rfl⟩ := noOperand_eq_some h
      exact ⟨rfl, by rw [h6]; rfl⟩
    · obtain ⟨rfl, rfl⟩ := noOperand_eq_some h
      exact ⟨rfl, by rw [h7]; rfl⟩
    · obtain ⟨rfl, rfl⟩ := noOperand_eq_some h
      exact ⟨rfl, by rw [h8]; rfl⟩
    · obtain ⟨a, rfl, rfl⟩ := byteOperand_eq_some h
      exact ⟨rfl, by rw [h9]; rfl⟩

theorem encode_of_decodeCommand {p : List Byte} {i : Instr} (h : decodeCommand p = some i) :
    i.wf = true ∧ encode i = .command p := by
  unfold decodeCommand at h
  split at h
  · obtain ⟨⟨rfl, rfl⟩, rfl⟩ : (_ ∧ _) ∧ _ := by simpa using h
    exact ⟨rfl, rfl⟩
  · obtain ⟨⟨rfl, rfl⟩, rfl⟩ : (_ ∧ _) ∧ _ := by simpa using h
    exact ⟨rfl, rfl⟩
  · obtain ⟨⟨rfl, rfl, rfl⟩, rfl⟩ : (_ ∧ _ ∧ _) ∧ _ := by simpa using h
    exact ⟨rfl, rfl⟩
  · obtain ⟨⟨rfl, rfl, rfl⟩, rfl⟩ : (_ ∧ _ ∧ _) ∧ _ := by simpa using h
    exact ⟨rfl, rfl⟩
  · cases h

theorem encode_of_decodeReply {r : List Byte} {i : Instr} (h : decodeReply r = some i) :
    i.wf = true ∧ encode i = .reply r := by
  unfold decodeReply at h
  split at h
  · split_ifs at h with himage
    cases h
    exact ⟨rfl, congrArg Request.reply himage.symm⟩
  · split_ifs at h with himage
    cases h
    exact ⟨rfl, congrArg Request.reply himage.symm⟩
  · split_ifs at h with himage
    obtain ⟨hhead, rfl, rfl⟩ := himage
    cases h
    cases hhead
    exact ⟨rfl, rfl⟩
  · split_ifs at h with himage
    obtain ⟨hhead, rfl, rfl⟩ := himage
    cases h
    cases hhead
    exact ⟨rfl, rfl⟩
  · cases h

/-! ### The statements -/

/-- Settles O1: the count bytes of an encoding are the length (R88), and every other row is a fixed layout. -/
theorem decodeRecoversEncodedInstr : Obligations.DecodeRecoversEncodedInstr := by
  intro i hwf
  cases i with
  | encode p => exact countedOperand_cons (toNat_lenByte (of_decide_eq_true hwf)).symm
  | decode r => exact counted16Operand_cons (length_eq_count16 (of_decide_eq_true hwf))
  | dcs p => exact countedOperand_cons (toNat_lenByte (of_decide_eq_true hwf)).symm
  | expect e => exact countedOperand_cons (toNat_lenByte (of_decide_eq_true hwf)).symm
  | wireInListPassiveTargetResp nbTg tg s0 s1 sel idLen uid => exact if_pos ⟨rfl, rfl, rfl⟩
  | wireInDataExchangeResp st => exact if_pos ⟨rfl, rfl, rfl⟩
  | _ => rfl

/-- Settles O2: one inversion for each of the three kinds of request. -/
theorem encodeRecoversDecodedRequest : Obligations.EncodeRecoversDecodedRequest := by
  intro q i h
  cases q with
  | host c => exact encode_of_decodeHost h
  | command p => exact encode_of_decodeCommand h
  | reply r => exact encode_of_decodeReply h

/-- Settles O4: each word is decoded by evaluation. -/
theorem specWordsDecode : Obligations.SpecWordsDecode := by
  unfold Obligations.SpecWordsDecode
  decide

/-! ### The step (R63, R85, R231) -/

theorem step_of_decode {s : State} {q : Request} {rest : List Request} {i : Instr} (hq : s.port = q :: rest)
    (hd : decode q = some i) : step s = exec i (s.take rest) := by
  simp [step, hq, hd]

theorem step_of_unlisted {s : State} {q : Request} {rest : List Request} (hq : s.port = q :: rest)
    (hd : decode q = none) : step s = runUnlisted q (s.take rest) := by
  simp [step, hq, hd]

/-- Settles O3, by `step_of_decode`. -/
theorem stepRunsDecodedRequest : Obligations.StepRunsDecodedRequest := fun _ _ _ _ hq hd => step_of_decode hq hd

/-- Settles O5, by the first branch of `step`. -/
theorem stepWaitsForRequest : Obligations.StepWaitsForRequest := by
  intro s h
  simp [step, h]

/-- Settles O6: an unlisted request runs as `runUnlisted` says. -/
theorem stepTakesUnlistedWireRequests : Obligations.StepTakesUnlistedWireRequests := by
  refine fun s b rest => ⟨fun hd hq => step_of_unlisted hq hd, fun hd hq hb => ?_⟩
  rw [step_of_unlisted hq hd]
  exact runPure_runs (decide_eq_true hb)

end Sys2Proof.Machine

/-! The frame codec (40_frame_codec.md): the checksum laws (R100), and DECODE of the images the rules name (R108 to
R110). -/

namespace Sys2Proof.Machine

/-! ### The checksum laws (R100) -/

theorem lcs_lcs (l : Byte) : lcs (lcs l) = l := by
  apply BitVec.eq_of_toNat_eq
  have hl := l.isLt
  rw [toNat_lcs, toNat_lcs]
  omega

theorem lcs_eq_neg (l : Byte) : lcs l = -l := by
  apply BitVec.eq_of_toNat_eq
  rw [toNat_lcs, BitVec.toNat_neg]

theorem dcs_eq_neg (p : List Byte) : dcs p = -BitVec.ofNat 8 (p.map BitVec.toNat).sum := by
  apply BitVec.eq_of_toNat_eq
  rw [toNat_dcs, byteSum_eq_sum_map, BitVec.toNat_neg, BitVec.toNat_ofNat]

/-- Settles O23, from the values of the two checksums (`toNat_lcs`, `toNat_dcs`) and a sum that is blind to order. -/
theorem checksumLaws : Obligations.ChecksumLaws := by
  refine ⟨toNat_lcs, fun p => ?dcs, fun p hp => ?bound, fun l => (lcs_test_iff l _).mpr rfl, fun p => ?sum, by decide,
    by decide, dcs_eq_zero_iff, by decide, lcs_lcs, Function.Involutive.bijective lcs_lcs, fun p q hpq => ?perm,
    lcs_eq_neg, dcs_eq_neg⟩
  case dcs => rw [toNat_dcs, byteSum_eq_sum_map]
  case bound =>
    have h := byteSum_le p
    rw [byteSum_eq_sum_map] at h
    omega
  case sum =>
    rw [← byteSum_eq_sum_map]
    exact (dcs_test_iff p _).mpr rfl
  case perm => rw [dcs, dcs, byteSum_perm hpq]

/-! ### What the checks of DECODE say (R106) -/

theorem lcsOk_iff (c : Config) (r : List Byte) :
    lcsOk c r = true ↔ receivedLcs c r = some (lcs (announcedLength c r)) := by
  unfold lcsOk
  cases receivedLcs c r with
  | none => simp
  | some x => rw [beq_iff_eq, lcs_test_iff, Option.some.injEq]

theorem dcsOk_iff (c : Config) (r : List Byte) :
    dcsOk c r = true ↔ receivedDcs c r = some (dcs (payloadRegion c r)) := by
  unfold dcsOk
  cases receivedDcs c r with
  | none => simp
  | some x => rw [beq_iff_eq, dcs_test_iff, Option.some.injEq]

theorem lcsOk_of_absent {c : Config} {r : List Byte} (h : receivedLcs c r = none) : lcsOk c r = false := by
  rw [lcsOk, h]

theorem dcsOk_of_absent {c : Config} {r : List Byte} (h : receivedDcs c r = none) : dcsOk c r = false := by
  rw [dcsOk, h]

/-- DECODE of any buffer a command can carry completes with its record and its diagnostics. -/
theorem decodesTo_decodeFrame (s : State) {r : List Byte} (h : r.length ≤ 65535) :
    DecodesTo s r (decodeFrame s.cfg r) (decodeDiags s.cfg r) := by
  refine ⟨_, exec_decode_runs h s, ?_⟩
  rw [← update_decode]
  exact ⟨rfl, rfl, List.append_nil _⟩

theorem exists_eq_decidedWith {c : Config} (h : c.IsDecided) :
    ∃ devAddr maxWrite maxRead settle, c = Config.decidedWith devAddr maxWrite maxRead settle :=
  ⟨_, _, _, _, h⟩

/-- Settles O28: each check says that the received byte is the checksum. -/
theorem wellFormedIffChecksumsMatch : Obligations.WellFormedIffChecksumsMatch := by
  refine ⟨fun s r hr => ⟨_, _, decodesTo_decodeFrame s hr, and_congr (lcsOk_iff s.cfg r) (dcsOk_iff s.cfg r)⟩,
    fun s hs => ⟨_, _, decodesTo_decodeFrame s (by decide), ?_⟩⟩
  obtain ⟨devAddr, maxWrite, maxRead, settle, hcfg⟩ := exists_eq_decidedWith hs
  rw [hcfg]
  have hlcs : some 0xFE = some (lcs 0x02) := by decide
  have hdcs : some 0x16 = some (dcs [0xD5, 0x15]) := by decide
  exact ⟨(lcsOk_iff (Config.decidedWith devAddr maxWrite maxRead settle) wakeConfImage).mpr hlcs,
    (dcsOk_iff (Config.decidedWith devAddr maxWrite maxRead settle) wakeConfImage).mpr hdcs, rfl⟩

/-! ### DECODE of a frame ENCODE builds (R109) -/

theorem getElem?_encodeFrame_post (p : List Byte) : (encodeFrame p)[p.length + 6]? = some 0x00 := by
  simp [encodeFrame]

section
variable {c : Config} {p : List Byte} (hoff : c.lenOff = 4)
include hoff

theorem announcedLength_encodeFrame (b : Byte) : announcedLength c (b :: encodeFrame p) = lenByte p := by
  rw [announcedLength, hoff]
  rfl

theorem receivedLcs_encodeFrame (b : Byte) : receivedLcs c (b :: encodeFrame p) = some (lcs (lenByte p)) := by
  rw [receivedLcs, hoff]
  rfl

theorem payloadRegion_encodeFrame (b : Byte) (hp : p.length ≤ 255) : payloadRegion c (b :: encodeFrame p) = p := by
  rw [payloadRegion_eq, announcedLength_encodeFrame hoff, toNat_lenByte hp, hoff]
  exact List.take_left

theorem receivedDcs_encodeFrame (b : Byte) (hp : p.length ≤ 255) :
    receivedDcs c (b :: encodeFrame p) = some (dcs p) := by
  rw [receivedDcs, announcedLength_encodeFrame hoff, toNat_lenByte hp, hoff, byteAt,
    show 4 + 2 + p.length = p.length + 5 + 1 by omega, List.getElem?_cons_succ, getElem?_encodeFrame_dcs]

theorem receivedPost_encodeFrame (b : Byte) (hp : p.length ≤ 255) :
    receivedPost c (b :: encodeFrame p) = some 0x00 := by
  rw [receivedPost, announcedLength_encodeFrame hoff, toNat_lenByte hp, hoff, byteAt,
    show 4 + 3 + p.length = p.length + 6 + 1 by omega, List.getElem?_cons_succ, getElem?_encodeFrame_post]

/-- The record of a frame behind its lead byte: the payload, and every check good. -/
theorem decodeFrame_encodeFrame (hstart : c.sliceStart = 0) (hp : p.length ≤ 255) :
    decodeFrame c (c.lead :: encodeFrame p) =
      { len := lenByte p
        slice := c.lead :: encodeFrame p
        payload := p
        lcs := some (lcs (lenByte p))
        dcs := some (dcs p)
        post := some 0x00
        leadOk := true
        lcsOk := true
        dcsOk := true
        short := false } := by
  have hlen := announcedLength_encodeFrame (p := p) hoff c.lead
  have hslice : slice (c.lead :: encodeFrame p) 0 (0 + p.length + 8) = c.lead :: encodeFrame p :=
    List.take_of_length_le (by simp)
  have hlead : leadOk c (c.lead :: encodeFrame p) = true := by simp [leadOk, hstart, byteAt]
  have hlcs : lcsOk c (c.lead :: encodeFrame p) = true := by
    rw [lcsOk_iff, receivedLcs_encodeFrame hoff, hlen]
  have hdcs : dcsOk c (c.lead :: encodeFrame p) = true := by
    rw [dcsOk_iff, receivedDcs_encodeFrame hoff _ hp, payloadRegion_encodeFrame hoff _ hp]
  have hshort : shortImage c (c.lead :: encodeFrame p) = false := by
    simp [shortImage, hstart, hlen, toNat_lenByte hp]
  simp only [decodeFrame, hlen, toNat_lenByte hp, hstart, hslice, payloadRegion_encodeFrame hoff _ hp,
    receivedLcs_encodeFrame hoff, receivedDcs_encodeFrame hoff _ hp, receivedPost_encodeFrame hoff _ hp, hlead, hlcs,
    hdcs, hshort]

end

/-- A record whose checks are all good leaves no diagnostic. -/
theorem decodeDiags_of_good {c : Config} {r : List Byte} (hlead : leadOk c r = true) (hlcs : lcsOk c r = true)
    (hdcs : dcsOk c r = true) (hshort : shortImage c r = false) : decodeDiags c r = [] := by
  simp [decodeDiags, hlead, hlcs, hdcs, hshort]

/-- Settles O29, from the record of the frame (`decodeFrame_encodeFrame`). -/
theorem decodeOfEncodedFrame : Obligations.DecodeOfEncodedFrame := by
  intro s p hp hoff hstart
  refine ⟨_, exec_encode_runs hp s, encodeFrame p, rfl, ?_⟩
  have hlength : (s.cfg.lead :: encodeFrame p).length ≤ 65535 := by
    rw [List.length_cons, length_encodeFrame]
    omega
  have hframe := decodeFrame_encodeFrame hoff hstart hp
  have hlead : leadOk s.cfg (s.cfg.lead :: encodeFrame p) = true := congrArg DecodedFrame.leadOk hframe
  have hlcs : lcsOk s.cfg (s.cfg.lead :: encodeFrame p) = true := congrArg DecodedFrame.lcsOk hframe
  have hdcs : dcsOk s.cfg (s.cfg.lead :: encodeFrame p) = true := congrArg DecodedFrame.dcsOk hframe
  have hshort : shortImage s.cfg (s.cfg.lead :: encodeFrame p) = false := congrArg DecodedFrame.short hframe
  rw [exec_decode_runs hlength, ← update_decode, decodeUpdate, hframe, hlead, hlcs, hdcs, hshort,
    decodeDiags_of_good hlead hlcs hdcs hshort]
  simp [State.update, Update.complete, Update.keep, setFlags, lenByte]

/-! ### The corner cases of DECODE (R110) -/

section
variable {c : Config} {r : List Byte} (hoff : c.lenOff = 4)
include hoff

/-- Item 2: where the LEN byte is absent, so is everything behind it. -/
theorem decodeFrame_of_length_le (hstart : c.sliceStart = 0) (hr : r.length ≤ 4) :
    announcedLength c r = 0x00 ∧ lcsOk c r = false ∧ dcsOk c r = false ∧ shortImage c r = true := by
  have hlen : announcedLength c r = 0x00 := by rw [announcedLength_eq, hoff, if_neg (by omega)]
  refine ⟨hlen, lcsOk_of_absent ?_, dcsOk_of_absent ?_, ?_⟩
  · exact List.getElem?_eq_none (by omega)
  · exact List.getElem?_eq_none (by omega)
  · rw [shortImage, hstart, hlen]
    exact decide_eq_true (show r.length < 0 + 0 + 8 by omega)

/-- Item 5: zero bytes announce the length zero, and both checksums of zero are zero. -/
theorem decodeFrame_replicate_zero {n : Nat} (hn : 7 ≤ n) :
    announcedLength c (List.replicate n 0x00) = 0x00 ∧ lcsOk c (List.replicate n 0x00) = true ∧
      dcsOk c (List.replicate n 0x00) = true := by
  have hbyte (i : Nat) (hi : i < 7) : byteAt (List.replicate n (0x00 : Byte)) i = some 0x00 := by
    rw [byteAt, List.getElem?_replicate, if_pos (by omega)]
  have hlen : announcedLength c (List.replicate n 0x00) = 0x00 := by
    rw [announcedLength, hoff, hbyte 4 (by omega)]
    rfl
  have hpayload : payloadRegion c (List.replicate n 0x00) = [] := by
    rw [payloadRegion_eq, hlen]
    exact List.take_zero
  refine ⟨hlen, ?_, ?_⟩
  · rw [lcsOk_iff, hlen, receivedLcs, hoff, hbyte 5 (by omega)]
    rfl
  · rw [dcsOk_iff, hpayload, receivedDcs, hlen, hoff]
    exact hbyte 6 (by omega)

/-- Item 6: an image that ends before its announced length is taken as far as it goes. -/
theorem decodeFrame_clipped (hr : r.length ≤ (announcedLength c r).toNat + 6) :
    payloadRegion c r = r.drop 6 ∧ receivedDcs c r = none ∧ dcsOk c r = false := by
  have hdcs : receivedDcs c r = none := List.getElem?_eq_none (by omega)
  refine ⟨?_, hdcs, dcsOk_of_absent hdcs⟩
  rw [payloadRegion_eq, hoff]
  exact List.take_of_length_le (by rw [List.length_drop]; omega)

/-- Item 7: bytes behind a whole image change nothing DECODE computes. -/
theorem decodeFrame_append (hstart : c.sliceStart = 0) (pad : List Byte)
    (hr : (announcedLength c r).toNat + 8 ≤ r.length) :
    decodeFrame c (r ++ pad) = decodeFrame c r ∧ decodeDiags c (r ++ pad) = decodeDiags c r := by
  have hbyte (i : Nat) (hi : i < r.length) : byteAt (r ++ pad) i = byteAt r i := List.getElem?_append_left hi
  have hslice (i j : Nat) (hj : j ≤ r.length) : slice (r ++ pad) i j = slice r i j := by
    rw [slice, slice, List.take_append_of_le_length hj]
  have hlen : announcedLength c (r ++ pad) = announcedLength c r := by
    rw [announcedLength, announcedLength, hbyte _ (by omega)]
  have hpayload : payloadRegion c (r ++ pad) = payloadRegion c r := by
    rw [payloadRegion, payloadRegion, hlen, hslice _ _ (by omega)]
  have hlcs : receivedLcs c (r ++ pad) = receivedLcs c r := hbyte _ (by omega)
  have hdcs : receivedDcs c (r ++ pad) = receivedDcs c r := by
    rw [receivedDcs, receivedDcs, hlen, hbyte _ (by omega)]
  have hpost : receivedPost c (r ++ pad) = receivedPost c r := by
    rw [receivedPost, receivedPost, hlen, hbyte _ (by omega)]
  have hlead : byteAt (r ++ pad) c.sliceStart = byteAt r c.sliceStart := hbyte _ (by omega)
  have hleadOk : leadOk c (r ++ pad) = leadOk c r := by rw [leadOk, leadOk, hlead]
  have hlcsOk : lcsOk c (r ++ pad) = lcsOk c r := by rw [lcsOk, lcsOk, hlen, hlcs]
  have hdcsOk : dcsOk c (r ++ pad) = dcsOk c r := by rw [dcsOk, dcsOk, hpayload, hdcs]
  have hshort : shortImage c r = false := decide_eq_false (by omega)
  have hshort' : shortImage c (r ++ pad) = false := by
    rw [shortImage, hlen]
    exact decide_eq_false (by rw [List.length_append]; omega)
  constructor
  · simp only [decodeFrame, hlen, hslice _ _ (show c.sliceStart + (announcedLength c r).toNat + 8 ≤ r.length by omega),
      hpayload, hlcs, hdcs, hpost, hleadOk, hlcsOk, hdcsOk, hshort, hshort']
  · simp only [decodeDiags, hlead, hlcs, hdcs, hleadOk, hlcsOk, hdcsOk, hshort, hshort', Bool.false_eq_true, if_false]

end

/-- Settles O30: three fixed images by evaluation, the others from the lemma of their item. -/
theorem decodeCornerCases : Obligations.DecodeCornerCases := by
  intro s hs
  obtain ⟨devAddr, maxWrite, maxRead, settle, hcfg⟩ := exists_eq_decidedWith hs
  have hoff : s.cfg.lenOff = 4 := congrArg Config.lenOff hs
  have hstart : s.cfg.sliceStart = 0 := congrArg Config.sliceStart hs
  refine ⟨?empty, fun r hr => ?tiny, ?zeroLength, ?ack, fun n hn hn' => ?zeros, fun r hr => ?clipped,
    fun r pad hpad hr => ?padded⟩
  case empty =>
    have h := decodesTo_decodeFrame s (r := []) (by decide)
    rw [hcfg] at h
    exact ⟨_, h, rfl, rfl, rfl, rfl, rfl, rfl, rfl⟩
  case tiny =>
    exact ⟨_, _, decodesTo_decodeFrame s (by omega), decodeFrame_of_length_le hoff hstart hr⟩
  case zeroLength =>
    have h := decodesTo_decodeFrame s (r := [0x01, 0x00, 0x00, 0xFF, 0x00, 0x00, 0x00, 0x00]) (by decide)
    rw [hcfg] at h
    exact ⟨_, h, rfl, rfl, rfl, rfl⟩
  case ack =>
    have h := decodesTo_decodeFrame s (r := ackImage) (by decide)
    rw [hcfg] at h
    exact ⟨_, h, rfl, rfl, rfl, rfl⟩
  case zeros =>
    obtain ⟨hlen, hlcs, hdcs⟩ := decodeFrame_replicate_zero hoff hn
    have hlead : leadOk s.cfg (List.replicate n 0x00) = false := by
      have hne : some (0x00 : Byte) ≠ some 0x01 := by decide
      rw [leadOk, hstart, byteAt, List.getElem?_replicate, if_pos (by omega), hcfg]
      exact beq_false_of_ne hne
    exact ⟨_, _, decodesTo_decodeFrame s (by simpa using hn'), hlen, hlead, hlcs, hdcs⟩
  case clipped =>
    refine ⟨_, _, decodesTo_decodeFrame s hr, fun h => ?_, fun h => decodeFrame_clipped hoff h⟩
    have hshort : r.length < (announcedLength s.cfg r).toNat + 8 := h
    show slice r s.cfg.sliceStart _ = r
    rw [hstart]
    exact List.take_of_length_le (by omega)
  case padded =>
    have hlen : announcedLength s.cfg r = r.getD 4 0x00 := by
      rw [announcedLength_eq, hoff, if_pos (by omega)]
    obtain ⟨hframe, hdiags⟩ := decodeFrame_append hoff hstart pad (hlen ▸ hr)
    refine ⟨_, _, decodesTo_decodeFrame s ?_, hframe ▸ hdiags ▸ decodesTo_decodeFrame s hpad⟩
    rw [List.length_append] at hpad
    omega

end Sys2Proof.Machine

/-! The operations that talk to the device (41_ack_comparator.md, 42_session.md, 43_authenticator.md): when they are
accepted, refused or stuck, and their whole next states. -/

namespace Sys2Proof.Machine

/-! ### The transport primitives (R54, R55) and the pure operations (R57) -/

/-- Settles O33, from the laws of a scripted answer. -/
theorem readReturnsAnyBytesOfTheLength : Obligations.ReadReturnsAnyBytesOfTheLength := by
  refine ⟨length_answer, fun d r rest h => answer_of_staged h, fun s n => ?_⟩
  rw [← afterRead_eq]
  rfl

/-- Settles O34: the device after a write is the device after one call (`afterWrite_eq`). -/
theorem writeIsFollowedBySettle : Obligations.WriteIsFollowedBySettle := by
  intro s b
  rw [← afterWrite_eq]
  rfl

/-- Settles O31: the four updates read the operands and the configuration only, and need no transport call. -/
theorem pureOperationsNeedNoTransport : Obligations.PureOperationsNeedNoTransport := by
  intro i s s' hwf hi hcfg
  have hrun (hcalls : calls i = 0) (s : State) (haccepts : accepts i s = true) :
      exec i s = .next (s.update (updateOf i s)) := exec_runs haccepts (by rw [hcalls, completes_zero])
  obtain ⟨p, rfl⟩ | ⟨r, rfl⟩ | ⟨l, rfl⟩ | ⟨p, rfl⟩ := hi
  · exact ⟨_, _, hrun rfl s hwf, hrun rfl s' hwf, List.append_nil _, rfl, rfl⟩
  · refine ⟨_, _, hrun rfl s hwf, hrun rfl s' hwf, List.append_nil _, rfl, ?_⟩
    simp [updateOf, decodeUpdate, Update.complete, hcfg]
  · exact ⟨_, _, hrun rfl s hwf, hrun rfl s' hwf, List.append_nil _, rfl, rfl⟩
  · exact ⟨_, _, hrun rfl s hwf, hrun rfl s' hwf, List.append_nil _, rfl, rfl⟩

/-! ### When an operation is accepted (R54, R55, R101, R210) -/

theorem sendable_iff (c : Config) (p : List Byte) :
    sendable c p = true ↔ p.length ≤ 255 ∧ p.length + 7 ≤ c.maxWrite := by
  simp [sendable, writable]

theorem accepts_expect_iff (e : List Byte) (s : State) :
    accepts (.expect e) s = true ↔ e.length ≤ 255 ∧ e.length ≤ s.cfg.maxRead := by
  simp [accepts, readable]

theorem accepts_wake_iff (s : State) :
    accepts .wake s = true ↔ s.cfg.primeBytes.length ≤ s.cfg.maxWrite ∧ s.cfg.samPayload.length ≤ 255 ∧
      s.cfg.samPayload.length + 7 ≤ s.cfg.maxWrite ∧ 9 ≤ s.cfg.maxRead := by
  simp only [accepts, wakeFits, Bool.and_eq_true, sendable_iff, writable, readable, decide_eq_true_iff]
  omega

theorem accepts_findTarget_iff (s : State) :
    accepts .findTarget s = true ↔ s.cfg.ilptPayload.length ≤ 255 ∧ s.cfg.ilptPayload.length + 7 ≤ s.cfg.maxWrite ∧
      7 ≤ s.cfg.maxRead ∧ s.cfg.ilptReadLen ≤ s.cfg.maxRead := by
  simp only [accepts, findTargetFits, Bool.and_eq_true, sendable_iff, readable, decide_eq_true_iff]
  omega

theorem length_authCommand (a : Byte) (s : State) : (authCommand a s).length = 15 := rfl

theorem accepts_auth_iff (a : Byte) (s : State) :
    accepts (.auth a) s = true ↔ 22 ≤ s.cfg.maxWrite ∧ 7 ≤ s.cfg.maxRead ∧ s.cfg.authReadLen ≤ s.cfg.maxRead := by
  simp only [accepts, authFits, Bool.and_eq_true, sendable_iff, length_authCommand, readable, decide_eq_true_iff]
  omega

theorem accepts_wireSamConfiguration_iff (m : Byte) (s : State) :
    accepts (.wireSamConfiguration m) s = true ↔ 10 ≤ s.cfg.maxWrite := by
  simp [accepts, sendable_iff, samPayload]

theorem accepts_wireInListPassiveTarget_iff (x y : Byte) (s : State) :
    accepts (.wireInListPassiveTarget x y) s = true ↔ 11 ≤ s.cfg.maxWrite := by
  simp [accepts, sendable_iff, ilptPayload]

/-! ### Refusal and stall (R86, R89, R205, R206, R210) -/

/-- An encoded host command opens with an opcode of the table. -/
theorem not_reservedOpcode_of_encode {i : Instr} {op : Byte} {ops : List Byte} (h : encode i = .host (op :: ops)) :
    ¬ReservedOpcode op := by
  cases i <;> cases h <;> simp [ReservedOpcode]

theorem not_lengthMismatch_counted {op : Byte} (hop : op = 0x01 ∨ op = 0x04 ∨ op = 0x05) {p : List Byte}
    (hp : p.length ≤ 255) : ¬LengthMismatch (op :: BitVec.ofNat 8 p.length :: p) := by
  have hcount : p.length = (BitVec.ofNat 8 p.length).toNat := (toNat_lenByte hp).symm
  rcases hop with rfl | rfl | rfl
  · simpa [LengthMismatch] using hcount
  · simpa [LengthMismatch] using hcount
  · simpa [LengthMismatch] using hcount

/-- An encoded host command has the length its opcode and count bytes imply. -/
theorem not_lengthMismatch_of_encode {i : Instr} {c : List Byte} (hwf : i.wf = true) (h : encode i = .host c) :
    ¬LengthMismatch c := by
  cases i with
  | encode p =>
    cases h
    exact not_lengthMismatch_counted (.inl rfl) (of_decide_eq_true hwf)
  | dcs p =>
    cases h
    exact not_lengthMismatch_counted (.inr (.inl rfl)) (of_decide_eq_true hwf)
  | expect e =>
    cases h
    exact not_lengthMismatch_counted (.inr (.inr rfl)) (of_decide_eq_true hwf)
  | decode r =>
    cases h
    simpa [LengthMismatch] using length_eq_count16 (of_decide_eq_true hwf)
  | _ => cases h <;> simp [LengthMismatch]

theorem decode_host_eq_none {c : List Byte} (h : ∀ i : Instr, i.wf = true → encode i ≠ .host c) :
    decode (.host c) = none := by
  cases hd : decode (.host c) with
  | none => rfl
  | some i =>
    obtain ⟨hwf, he⟩ := encodeRecoversDecodedRequest _ _ hd
    exact absurd he (h i hwf)

theorem decode_reserved {op : Byte} (ops : List Byte) (h : ReservedOpcode op) : decode (.host (op :: ops)) = none :=
  decode_host_eq_none fun _ _ he => not_reservedOpcode_of_encode he h

theorem decode_lengthMismatch {c : List Byte} (h : LengthMismatch c) : decode (.host c) = none :=
  decode_host_eq_none fun _ hwf he => not_lengthMismatch_of_encode hwf he h

/-- An instruction whose condition of acceptance fails is refused. -/
theorem exec_refuses_of_not {i : Instr} {s : State} {p : Prop} (hiff : accepts i s = true ↔ p) (hp : ¬p) :
    exec i s = .next (refuse s) := exec_refuses (by rw [Bool.eq_false_iff, ne_eq, hiff]; exact hp)

/-- Settles O46: a reserved opcode and a length that does not match decode to nothing, and each limit is part of its
operation's condition of acceptance. -/
theorem refusalRule : Obligations.RefusalRule := by
  refine ⟨fun s op ops rest hop hq => step_of_unlisted hq (decode_reserved ops hop),
    fun s c rest hc hq => step_of_unlisted hq (decode_lengthMismatch hc), fun s => ⟨fun e he => ?expect, fun h => ?wake,
      fun h => ?findTarget, fun a h => ?auth, fun p hp => exec_encode_refuses hp s⟩⟩
  case expect => exact exec_refuses_of_not (accepts_expect_iff e s) (by omega)
  case wake => exact exec_refuses_of_not (accepts_wake_iff s) (by omega)
  case findTarget => exact exec_refuses_of_not (accepts_findTarget_iff s) (by omega)
  case auth => exact exec_refuses_of_not (accepts_auth_iff a s) (by omega)

/-- Settles O47: each bound is part of a condition of acceptance. -/
theorem furtherRefusals : Obligations.FurtherRefusals := by
  refine ⟨fun s => ⟨fun r hr => ?decode, fun p hp => ?dcs, fun e he => ?expect, fun h => ?wake, fun h => ?findTarget,
    fun m h => ?sam, fun x y h => ?ilpt⟩, fun s rest hq => step_of_unlisted hq rfl, fun s p rest hd hq hp => ?unlisted⟩
  case decode => exact runPure_refuses (decide_eq_false (by omega))
  case dcs => exact runPure_refuses (decide_eq_false (by omega))
  case expect => exact exec_refuses_of_not (accepts_expect_iff e s) (by omega)
  case wake => exact exec_refuses_of_not (accepts_wake_iff s) (by omega)
  case findTarget => exact exec_refuses_of_not (accepts_findTarget_iff s) (by omega)
  case sam => exact exec_refuses_of_not (accepts_wireSamConfiguration_iff m s) (by omega)
  case ilpt => exact exec_refuses_of_not (accepts_wireInListPassiveTarget_iff x y s) (by omega)
  case unlisted =>
    rw [step_of_unlisted hq hd]
    exact runPure_refuses (decide_eq_false (by omega))

/-- Settles O48: each operation is accepted within its limits, so it stalls where its calls do not all complete. -/
theorem stalledOperationHasNoStep : Obligations.StalledOperationHasNoStep := by
  refine fun s => ⟨fun e hne he hread hc => ?expect, fun h1 h2 h3 h4 hc => ?wake, fun h1 h2 h3 h4 hc => ?findTarget,
    fun a h1 h2 h3 hc => ?auth, fun hc => ⟨fun m h => ?sam, fun x y h => ?ilpt⟩⟩
  case expect =>
    have hcalls : calls (.expect e) = 1 := by simp [calls, hne]
    exact exec_stalls ((accepts_expect_iff e s).mpr ⟨he, hread⟩) (hcalls ▸ hc)
  case wake => exact exec_stalls ((accepts_wake_iff s).mpr ⟨h1, h2, h3, h4⟩) hc
  case findTarget => exact exec_stalls ((accepts_findTarget_iff s).mpr ⟨h1, h2, h3, h4⟩) hc
  case auth => exact exec_stalls ((accepts_auth_iff a s).mpr ⟨h1, h2, h3⟩) hc
  case sam => exact exec_stalls ((accepts_wireSamConfiguration_iff m s).mpr h) hc
  case ilpt => exact exec_stalls ((accepts_wireInListPassiveTarget_iff x y s).mpr h) hc

/-! ### Whole next states -/

/-- Settles O32, from EXPECT's update. -/
theorem expectComparesExactly : Obligations.ExpectComparesExactly := by
  refine ⟨fun e n h => countedOperand_cons h, fun s => ?empty, fun s e hne he hread hc => ?read⟩
  case empty =>
    rw [exec_runs ((accepts_expect_iff [] s).mpr (by simp)) (completes_zero _), updateOf, update_expect]
    simp [expectEffect, expectStep_nil, expectOk_eq, Device.answer, complete]
  case read =>
    have hcalls : calls (.expect e) = 1 := by simp [calls, hne]
    refine ⟨_, mismatchRecords_mismatchDiags (length_answer _ _), ?_⟩
    rw [exec_runs ((accepts_expect_iff e s).mpr ⟨he, hread⟩) (hcalls ▸ hc)]
    simp [updateOf, expectUpdate, Update.complete, Update.keep, State.update, setFlags, hne]

/-- Settles O35, from WAKE's update. -/
theorem wakeRunsItsSequence : Obligations.WakeRunsItsSequence := by
  refine ⟨rfl, fun s hprime hsam hsend hread hc => ?whole, fun c hcfg => ?decided⟩
  case whole =>
    refine ⟨_, _, mismatchRecords_mismatchDiags (length_answer _ _), mismatchRecords_mismatchDiags (length_answer _ _),
      ?_⟩
    rw [exec_runs ((accepts_wake_iff s).mpr ⟨hprime, hsam, hsend, hread⟩) hc]
    simp only [updateOf, wakeUpdate, Update.complete, Update.keep, State.update, getD_wakeRunning]
    simp [setFlags]
  case decided =>
    obtain ⟨devAddr, maxWrite, maxRead, settle, rfl⟩ := exists_eq_decidedWith hcfg
    have hframe : encodeFrame [0xD4, 0x14, 0x01] = [0x00, 0x00, 0xFF, 0x03, 0xFD, 0xD4, 0x14, 0x01, 0x17, 0x00] := by
      decide
    exact ⟨rfl, hframe⟩

/-! ### The presence test and the bytes at fixed offsets (R146, R173) -/

theorem presence_eq (c : Config) (r : List Byte) :
    presence c r = decide (r[c.markOff]? = some c.markVal ∧ r[c.nbtgOff]? = some c.nbtgVal) := by
  rw [Bool.eq_iff_iff, presence, Bool.and_eq_true, beq_iff_eq, beq_iff_eq, decide_eq_true_iff]
  rfl

theorem fixedByte_of_getElem? {k i : Nat} {r : List Byte} {x : Byte} (h : r[i]? = some x) : fixedByte k r i = x := by
  rw [fixedByte, byteAt, h, Option.getD_some]

theorem getElem?_fixedByte {k i : Nat} {r : List Byte} (h : i < r.length) : r[i]? = some (fixedByte k r i) := by
  obtain ⟨x, hx⟩ : ∃ x, r[i]? = some x := ⟨_, List.getElem?_eq_getElem h⟩
  rw [hx, fixedByte_of_getElem? hx]

theorem getElem?_uidWindow (c : Config) (k : Nat) (r : List Byte) {j : Nat} (hj : j < 4) :
    (uidWindow c k r).toList[j]? = some (fixedByte k r (c.uidOff + j)) := by
  match j, hj with
  | 0, _ => rfl
  | 1, _ => rfl
  | 2, _ => rfl
  | 3, _ => rfl

/-- A window inside the read is the four bytes at its offset. -/
theorem toList_uidWindow (c : Config) (k : Nat) {r : List Byte} (h : c.uidOff + 4 ≤ r.length) :
    (uidWindow c k r).toList = (r.drop c.uidOff).take 4 := by
  apply List.ext_getElem?
  intro j
  by_cases hj : j < 4
  · rw [getElem?_uidWindow c k r hj, List.getElem?_take_of_lt hj, List.getElem?_drop]
    exact (getElem?_fixedByte (by omega)).symm
  · rw [List.getElem?_take_eq_none (by omega)]
    exact List.getElem?_eq_none (Nat.le_of_not_lt hj)

/-- Settles O36, from FIND_TARGET's update. -/
theorem findTargetRecordsSession : Obligations.FindTargetRecordsSession := by
  refine ⟨rfl, fun s hpayload hsend hread hreadLen hc => ?whole, fun c hcfg => ?decided⟩
  case whole =>
    refine ⟨_, uidWindow s.cfg (s.device.reads + 1) ((s.device.afterCalls 0 1).answer s.cfg.ilptReadLen),
      mismatchRecords_mismatchDiags (length_answer _ _), fun h => toList_uidWindow _ _ ?_, fun j x hj hx => ?_, ?_⟩
    · rwa [length_answer]
    · rw [getElem?_uidWindow _ _ _ hj, fixedByte_of_getElem? hx]
    · rw [exec_runs ((accepts_findTarget_iff s).mpr ⟨hpayload, hsend, hread, hreadLen⟩) hc]
      simp only [← presence_eq]
      simp [updateOf, findTargetUpdate, Update.complete, Update.keep, State.update, setFlags, zeroUid]
  case decided =>
    obtain ⟨devAddr, maxWrite, maxRead, settle, rfl⟩ := exists_eq_decidedWith hcfg
    have hframe : encodeFrame [0xD4, 0x4A, 0x01, 0x00] =
        [0x00, 0x00, 0xFF, 0x04, 0xFC, 0xD4, 0x4A, 0x01, 0x00, 0xE1, 0x00] := by decide
    exact ⟨hframe, rfl, rfl, rfl, rfl, rfl, rfl, rfl⟩

/-- A discovery that is not refused makes FIND_TARGET's update. -/
theorem eq_update_of_findTarget {s t : State} (h : exec .findTarget s = .next t) (hne : t ≠ refuse s) :
    t = s.update (findTargetUpdate s) := by
  rcases exec_next h with ⟨-, ht⟩ | ⟨-, ht⟩
  · exact ht
  · exact absurd ht hne

/-- A discovery that finds nothing ends with the empty session. -/
theorem emptySession_of_findTarget_false {s : State} (h : (s.update (findTargetUpdate s)).result = .bool false) :
    let t := s.update (findTargetUpdate s)
    t.present = false ∧ t.tgid = 0x00 ∧ t.uid = zeroUid ∧ t.sstate = SState.noTarget := by
  have hfound : presence s.cfg ((s.device.afterCalls 0 1).answer s.cfg.ilptReadLen) = false := Result.bool.inj h
  simp [findTargetUpdate, hfound]

theorem length_trace_findTarget (s : State) :
    (s.update (findTargetUpdate s)).trace.length = s.trace.length + 4 := by
  simp [findTargetUpdate]

/-- Settles O37: FIND_TARGET's update takes the session from the configuration and the device. -/
theorem discoveryIsIdempotent : Obligations.DiscoveryIsIdempotent := by
  refine ⟨fun s s' t t' hcfg hdevice h h' hne hne' => ?_, fun s t u h h' hne hne' hres hres' => ?_⟩
  · obtain rfl := eq_update_of_findTarget h hne
    obtain rfl := eq_update_of_findTarget h' hne'
    simp [findTargetUpdate, Update.complete, hcfg, hdevice]
  · obtain rfl := eq_update_of_findTarget h hne
    obtain rfl := eq_update_of_findTarget h' hne'
    refine ⟨emptySession_of_findTarget_false hres, emptySession_of_findTarget_false hres', ?_⟩
    rw [length_trace_findTarget, length_trace_findTarget]

/-- Settles O39, from AUTH's update. -/
theorem authSendsAndReports : Obligations.AuthSendsAndReports := by
  refine ⟨fun a => rfl, fun s a hwrite hread hreadLen hc => ?whole, fun c hcfg => ?decided⟩
  case whole =>
    refine ⟨_, authStatusByte s, mismatchRecords_mismatchDiags (length_answer _ _), fun h => getElem?_fixedByte ?_, ?_⟩
    · rwa [length_answer]
    · rw [exec_runs ((accepts_auth_iff a s).mpr ⟨hwrite, hread, hreadLen⟩) hc]
      simp [updateOf, authUpdate, authCommand, authPayload, Update.complete, Update.keep, State.update, setFlags]
  case decided =>
    obtain ⟨devAddr, maxWrite, maxRead, settle, rfl⟩ := exists_eq_decidedWith hcfg
    have hframe : encodeFrame [0xD4, 0x40, 0x01, 0x60, 0x04, 0xFF, 0xFF, 0xFF, 0xFF, 0xFF, 0xFF, 0xDE, 0xAD, 0xBE,
          0xEF] =
        [0x00, 0x00, 0xFF, 0x0F, 0xF1, 0xD4, 0x40, 0x01, 0x60, 0x04, 0xFF, 0xFF, 0xFF, 0xFF, 0xFF, 0xFF, 0xDE, 0xAD,
          0xBE, 0xEF, 0x55, 0x00] := by decide
    exact ⟨rfl, rfl, rfl, hframe⟩

/-- Settles O40: the scripted second answer has a zero byte at the status offset. -/
theorem authZeroPaddingReadsAsSuccess : Obligations.AuthZeroPaddingReadsAsSuccess := by
  rintro s a hs hwrite hread hc ⟨x, rest, hstaged⟩
  have hlen : s.cfg.authReadLen = 11 := congrArg Config.authReadLen hs
  have hoff : s.cfg.authStatusOff = 8 := congrArg Config.authStatusOff hs
  have hsecond : (s.device.afterCalls 0 1).staged = List.replicate 11 0x00 :: rest := by
    rw [Device.afterCalls, hstaged]
    rfl
  have hstatus : authStatusByte s = 0x00 := by
    rw [authStatusByte, hlen, hoff]
    exact fixedByte_of_getElem? (congrArg (·[8]?) (answer_of_staged hsecond))
  refine ⟨_, exec_runs ((accepts_auth_iff a s).mpr ⟨hwrite, by omega, by omega⟩) hc, ?_⟩
  simp [updateOf, authUpdate, Update.complete, hstatus, flagWrite]

/-! ### Runs answered by staged images (log 3, log 7) -/

theorem completes_of_unlimited {d : Device} (h : d.callsLeft = none) (k : Nat) : d.completes k = true := by
  rw [Device.completes, h]

/-- What a device with the two answers `a` and `b` scripted answers to its next two reads. -/
theorem answers_of_two_staged {d : Device} {a b : List Byte} {rest : List (List Byte)} (h : d.staged = a :: b :: rest) :
    d.answer a.length = a ∧ (d.afterCalls 0 1).answer b.length = b := by
  have hsecond : (d.afterCalls 0 1).staged = b :: rest := by
    rw [Device.afterCalls, h]
    rfl
  exact ⟨answer_of_staged h, answer_of_staged hsecond⟩

/-- WAKE's update where both answers are as expected. -/
theorem wakeUpdate_of_matched {s : State} (hack : s.device.answer 7 = ackImage)
    (hconf : (s.device.afterCalls 0 1).answer 9 = wakeConfImage) :
    wakeUpdate s =
      { Update.complete (.bool true) s with
        device := s.device.afterCalls 2 2
        running := some true
        sstate := some SState.idle
        flags := [(.confOk, true), (.ackOk, true)]
        trace := [.write s.cfg.primeBytes, .settle, .write (encodeFrame s.cfg.samPayload), .settle, .read 7 ackImage,
          .read 9 wakeConfImage] } := by
  simp [wakeUpdate, hack, hconf, Update.complete, Update.keep]

/-- FIND_TARGET's update where the first answer is as expected and the second passes the presence test. -/
theorem findTargetUpdate_of_found {s : State} {r : List Byte} (hack : s.device.answer 7 = ackImage)
    (hr : (s.device.afterCalls 0 1).answer s.cfg.ilptReadLen = r) (hfound : presence s.cfg r = true) :
    findTargetUpdate s =
      { Update.complete (.bool true) s with
        device := s.device.afterCalls 1 2
        present := true
        tgid := s.cfg.tgidFound
        uid := uidWindow s.cfg (s.device.reads + 1) r
        sstate := some SState.targetFound
        flags := [(.ackOk, true), (.found, true)]
        trace := [.write (encodeFrame s.cfg.ilptPayload), .settle, .read 7 ackImage, .read s.cfg.ilptReadLen r] } := by
  simp [findTargetUpdate, hack, hr, hfound, Update.complete, Update.keep]

/-- Settles O53: the two staged constants are WAKE's two answers, so its update is the matched one. -/
theorem wakeSucceedsOnStagedConstants : Obligations.WakeSucceedsOnStagedConstants := by
  intro s hs hwrite hread hstaged hcalls
  have hprime : s.cfg.primeBytes = [] := congrArg Config.primeBytes hs
  have hsam : s.cfg.samPayload = samPayload 0x01 := congrArg Config.samPayload hs
  have hframe : encodeFrame (samPayload 0x01) = [0x00, 0x00, 0xFF, 0x03, 0xFD, 0xD4, 0x14, 0x01, 0x17, 0x00] := by
    decide
  obtain ⟨s2, hs2⟩ : ∃ s2, s2 = stage wakeConfImage (stage ackImage s) := ⟨_, rfl⟩
  have hcfg2 : s2.cfg = s.cfg := by rw [hs2]; rfl
  have hcalls2 : s2.device.callsLeft = none := by rw [hs2]; exact hcalls
  have hstaged2 : s2.device.staged = ackImage :: wakeConfImage :: [] := by simp [hs2, hstaged]
  obtain ⟨hack, hconf⟩ := answers_of_two_staged hstaged2
  have hfits : accepts .wake s2 = true := by
    rw [accepts_wake_iff, hcfg2, hprime, hsam]
    exact ⟨Nat.zero_le _, by decide, hwrite, hread⟩
  have hrun := exec_runs hfits (completes_of_unlimited hcalls2 _)
  rw [updateOf, wakeUpdate_of_matched hack hconf, hcfg2, hprime, hsam, hframe] at hrun
  refine ⟨_, s2, _, rfl, congrArg _ hs2.symm, hrun, rfl, rfl, rfl, ?ackOk, ?confOk, ?diag, ?trace⟩
  case ackOk => simp [flagWrite]
  case confOk => simp [flagWrite]
  case diag => simp [hs2, Update.complete, Update.keep]
  case trace => simp [hs2]

/-- The image of R80 with one target passes the presence test, and its UID stands in the window. -/
theorem presence_oneTarget {c : Config} (hc : c.IsDecided) (tg s0 s1 sel idl : Byte) (u : Uid) :
    presence c (responseImage (ilptRespPayload 0x01 tg s0 s1 sel idl u)) = true ∧
      ∀ k, uidWindow c k (responseImage (ilptRespPayload 0x01 tg s0 s1 sel idl u)) = u := by
  obtain ⟨devAddr, maxWrite, maxRead, settle, rfl⟩ := exists_eq_decidedWith hc
  exact ⟨rfl, fun k => rfl⟩

/-- A discovery answered by the staged acknowledgement and one-target image records that target (R145, R146). -/
theorem exec_findTarget_oneTarget {s : State} {tg s0 s1 sel idl : Byte} {u : Uid} (hs : s.cfg.IsDecided)
    (hwrite : 11 ≤ s.cfg.maxWrite) (hread : 20 ≤ s.cfg.maxRead) (hcalls : s.device.callsLeft = none)
    (hstaged : s.device.staged = [ackImage, responseImage (ilptRespPayload 0x01 tg s0 s1 sel idl u)]) :
    ∃ t, exec .findTarget s = .next t ∧ t.result = .bool true ∧ t.uid = u ∧ t.tgid = 0x01 ∧ t.diag = s.diag ∧
      t.cfg = s.cfg ∧ t.device.callsLeft = none := by
  obtain ⟨hpresence, huid⟩ := presence_oneTarget hs tg s0 s1 sel idl u
  have hpayload : s.cfg.ilptPayload = ilptPayload 0x01 0x00 := congrArg Config.ilptPayload hs
  have hreadLen : s.cfg.ilptReadLen = 20 := congrArg Config.ilptReadLen hs
  have htgid : s.cfg.tgidFound = 0x01 := congrArg Config.tgidFound hs
  obtain ⟨hack, himage⟩ := answers_of_two_staged hstaged
  have hfits : accepts .findTarget s = true := by
    rw [accepts_findTarget_iff, hpayload, hreadLen]
    exact ⟨by decide, hwrite, by omega, hread⟩
  refine ⟨_, exec_runs hfits (completes_of_unlimited hcalls _), ?_⟩
  rw [updateOf, findTargetUpdate_of_found hack (hreadLen ▸ himage) hpresence, huid, htgid]
  exact ⟨rfl, rfl, rfl, List.append_nil _, rfl, by simp [Device.afterCalls, hcalls]⟩

/-- AUTH writes the frame of its command. -/
theorem exec_auth_writes {s : State} (a : Byte) (hfits : accepts (.auth a) s = true)
    (hcalls : s.device.callsLeft = none) :
    ∃ t, exec (.auth a) s = .next t ∧ .write (encodeFrame (authCommand a s)) ∈ t.trace :=
  ⟨_, exec_runs hfits (completes_of_unlimited hcalls _), List.mem_append_right _ List.mem_cons_self⟩

theorem authCommand_of_decided {s : State} (hs : s.cfg.IsDecided) (a : Byte) :
    authCommand a s =
      [0xD4, 0x40, s.tgid, 0x60, a, 0xFF, 0xFF, 0xFF, 0xFF, 0xFF, 0xFF] ++ s.uid.toList := by
  obtain ⟨devAddr, maxWrite, maxRead, settle, hcfg⟩ := exists_eq_decidedWith hs
  rw [authCommand, hcfg]
  rfl

/-- Settles O41: the discovery records the staged UID, and AUTH's command carries it. -/
theorem authCarriesDiscoveredUid : Obligations.AuthCarriesDiscoveredUid := by
  intro s tg s0 s1 sel idl a u hs hwrite hread hstaged hcalls
  let image := responseImage (ilptRespPayload 0x01 tg s0 s1 sel idl u)
  have hwrite11 : 11 ≤ s.cfg.maxWrite := by omega
  have htwo : (stage image (stage ackImage s)).device.staged = [ackImage, image] := by simp [hstaged]
  obtain ⟨s3, hfind, hresult, huid, htgid, hdiag, hcfg, hcalls3⟩ :=
    exec_findTarget_oneTarget (s := stage image (stage ackImage s)) hs hwrite11 hread hcalls htwo
  have hcfg3 : s3.cfg = s.cfg := hcfg
  have hs3 : s3.cfg.IsDecided := hcfg3 ▸ hs
  have hauthLen : s3.cfg.authReadLen = 11 := congrArg Config.authReadLen hs3
  have hfits : accepts (.auth a) s3 = true := by
    rw [accepts_auth_iff, hauthLen, hcfg3]
    exact ⟨hwrite, by omega, by omega⟩
  obtain ⟨t, hauth, hmem⟩ := exec_auth_writes a hfits hcalls3
  rw [authCommand_of_decided hs3, htgid, huid] at hmem
  exact ⟨_, _, s3, t, rfl, rfl, hfind, hresult, huid, htgid, hdiag, hauth, hmem⟩

/-! ### The wire rows (R73, R74, R78 to R83) -/

/-- Settles O49: both rows are sends of a fixed payload. -/
theorem wireCommandsSendTheirFrames : Obligations.WireCommandsSendTheirFrames := by
  refine fun s hc => ⟨fun m h => ?_, fun x y h => ?_⟩
  · rw [exec_runs ((accepts_wireSamConfiguration_iff m s).mpr h) hc, updateOf, update_send, txWrite, afterWrite_eq]
    rfl
  · rw [exec_runs ((accepts_wireInListPassiveTarget_iff x y s).mpr h) hc, updateOf, update_send, txWrite, afterWrite_eq]
    rfl

/-- Settles O50: the row is `formFrame` of the payload, as ENCODE is, and 15 bytes are accepted. -/
theorem wireAuthAIsEncode : Obligations.WireAuthAIsEncode := fun _ _ _ _ _ => ⟨rfl, rfl, rfl⟩

/-- Settles O51: the row is `formFrame` of the payload, as ENCODE is, and 5 bytes are accepted. -/
theorem read16IsEncode : Obligations.Read16IsEncode := fun _ _ _ => ⟨rfl, rfl, rfl⟩

/-- Settles O52, by the layout of each image. -/
theorem wireRepliesAreStaged : Obligations.WireRepliesAreStaged := fun _ =>
  ⟨rfl, rfl, fun _ _ _ _ _ _ _ => rfl, fun _ => rfl⟩

/-! ### Flags, diagnostics and reset -/

/-- Settles O22, by `flag_withFlag`. -/
theorem statusFlagsAreSeparate : Obligations.StatusFlagsAreSeparate := fun s f g v =>
  ⟨flag_withFlag s f g v, rfl, rfl, rfl, rfl, rfl, rfl, rfl, rfl⟩

/-- Settles O42, by the definition of `raise`. -/
theorem raiseOnlyAppends : Obligations.RaiseOnlyAppends := fun _ _ => rfl

/-- Settles O43, by the two tables of numbers. -/
theorem diagnosticsHaveTheTablesNumbers : Obligations.DiagnosticsHaveTheTablesNumbers :=
  ⟨fun _ _ => rfl, fun _ => rfl, fun _ _ => rfl, rfl, rfl, fun _ => ⟨rfl, rfl, rfl⟩, fun _ => rfl⟩

/-- Settles O8, with the decided configuration and the fresh device as the two that `State.reset` has. -/
theorem resetLeavesConfigurationAndInputs : Obligations.ResetLeavesConfigurationAndInputs :=
  ⟨fun _ _ _ => ⟨rfl, rfl, rfl⟩, Config.decided, Device.fresh, rfl, by decide, rfl, rfl, rfl⟩

end Sys2Proof.Machine
